-- ==== Sys2Proof/Word.lean ====
section
/-! DEFINITION. The words of the FPB: bytes, byte sequences, unsigned 32-bit values and digests
(spec/00_scope.md R10, R11, R8). -/

namespace Sys2Proof

/-- An unsigned 8-bit value 0x00 to 0xFF (R10). -/
abbrev Byte := BitVec 8

/-- A finite sequence of bytes, front first (R10). -/
abbrev Bytes := List Byte

/-- An unsigned integer 0 to 2^32-1 (R11). Every comparison of the rules is made on `toNat`. -/
abbrev U32 := BitVec 32

/-- `Bytes32`, the value of `hash256`: 32 bytes, `DIGEST_SIZE` of R9. -/
abbrev Digest := Vector Byte 32

end Sys2Proof
end

