-- ==== Sys2Proof/Machine/Bytes.lean ====
section
/-! DEFINITION. Byte-sequence primitives (spec/00_scope.md R9, R10, R12, R13, R16). -/

namespace Sys2Proof

/-- `HEADER_SIZE` (R9). -/
def headerSize : Nat := 24
/-- `CMD_FIELD_SIZE` (R9). -/
def cmdFieldSize : Nat := 12
/-- `MAGIC_OFFSET` (R9). -/
def magicOffset : Nat := 0
/-- `CMD_OFFSET` (R9). -/
def cmdOffset : Nat := 4
/-- `SIZE_OFFSET` (R9). -/
def sizeOffset : Nat := 16
/-- `CHECKSUM_OFFSET` (R9). -/
def checksumOffset : Nat := 20
/-- `PAYLOAD_OFFSET` (R9). -/
def payloadOffset : Nat := 24

/-- `zeros(n)` of R10. -/
def zeros (n : Nat) : Bytes := List.replicate n 0#8

/-- `b[i]` of R10. DESIGN CHOICE, safe (log 12): past the end it is 0x00, a case no rule reaches. -/
def byteAt (b : Bytes) (i : Nat) : Byte := b.getD i 0#8

/-- `le32(b, off)` of R12: four bytes as a u32, least significant byte first. -/
def le32 (b : Bytes) (off : Nat) : U32 :=
  BitVec.ofNat 32 ((byteAt b off).toNat + 2 ^ 8 * (byteAt b (off + 1)).toNat
    + 2 ^ 16 * (byteAt b (off + 2)).toNat + 2 ^ 24 * (byteAt b (off + 3)).toNat)

/-- `wle32(v)` of R12: the bytes `v[7:0], v[15:8], v[23:16], v[31:24]`. -/
def wle32 (v : U32) : Bytes :=
  [v.extractLsb' 0 8, v.extractLsb' 8 8, v.extractLsb' 16 8, v.extractLsb' 24 8]

/-- `MemRead(buf, off, n)` of R13: `buf[off..off+n)`, for `off + n <= |buf|`. -/
def memRead (buf : Bytes) (off n : Nat) : Bytes := (buf.drop off).take n

/-- `MemWrite(buf, off, n, v)` of R13: `buf[off..off+n)` replaced by the `n` bytes `v`. -/
def memWrite (buf : Bytes) (off n : Nat) (v : Bytes) : Bytes :=
  buf.take off ++ v ++ buf.drop (off + n)

/-- `first_nul(b, off, n)` of R16: the least `k < n` with `b[off+k] = 0x00`, or none. -/
def firstNul (b : Bytes) (off n : Nat) : Option Nat :=
  (List.range n).find? fun k => byteAt b (off + k) == 0#8

end Sys2Proof
end

