-- ==== Sys2Proof/Config.lean ====
section
/-! DEFINITION. What is fixed for a whole run and left open by the spec: the external functions
`hash256` and `decode`, the types `Packet` and `Cause`, and the profile that `State.reset` was
given (spec/00_scope.md R8, R14; spec/92_eei_decisions.md D4, D5). -/

namespace Sys2Proof

/-- The codec's decoded message object (R8, R14). The FPB never looks inside it (R126).
DESIGN CHOICE, safe (log 9): it is held as the byte string that names it. -/
structure Packet where
  image : Bytes
  deriving DecidableEq, Repr, Inhabited

/-- The codec's failure value (R8, R14), passed on unchanged (R126).
DESIGN CHOICE, safe (log 9): it is held as the byte string that names it. -/
structure Cause where
  image : Bytes
  deriving DecidableEq, Repr, Inhabited

/-- `Packet + Cause`, the result of `Decode` (R14). -/
inductive DecodeResult where
  | ok (pkt : Packet)
  | err (cause : Cause)
  deriving DecidableEq, Repr, Inhabited

/-- The external functions a run is bound to (R8, R182). Both are pure and total by their types
(R178). The meanings take them as an argument, so a test may bind the example codec of
spec/95_test_vectors.md; `exec` binds `Config.external`. -/
structure External where
  hash256 : Bytes → Digest
  decode : Bytes → Bytes → DecodeResult

namespace Config

/-- OPEN parameter `hash256` (R8, U4): no value of it can be proved. -/
opaque hash256 : Bytes → Digest

/-- OPEN parameter `decode`, from command bytes and payload to a packet or a failure (R8, U3). -/
opaque decode : Bytes → Bytes → DecodeResult

/-- The external functions of this hardware. -/
def external : External := ⟨hash256, decode⟩

/-- The operand `magic` of the RESET that `State.reset` stands after (R28, R35): any u32.
DESIGN CHOICE, safe (log 2): an open value, never a fixed number (R8). -/
opaque profileMagic : U32

/-- The operand `max` of the RESET that `State.reset` stands after (R28, R35): any u32.
DESIGN CHOICE, safe (log 2). -/
opaque profileMax : U32

/-- The identifier string of the block, with no optional extensions (R3). -/
def identifier : String := "FPB-1"

end Config

end Sys2Proof
end

