-- ==== Sys2Proof/Syntax.lean ====
section
/-! DEFINITION. The operations of the FPB, one constructor for each row of
spec/opcode_table.json (spec/30_encoding.md R80, R84). -/

namespace Sys2Proof

/-- The five host operations (R80) and the two micro-steps inside FEED (R84). -/
inductive Instr where
  /-- RESET: configure the instance and put the Parser in its initial state (R150). -/
  | reset (magic max : U32)
  /-- FEED: append a chunk and process every complete unit (R100). -/
  | feed (chunk : Bytes)
  /-- STATUS: read the instance's state (R152). -/
  | status
  /-- FRAME: frame a payload and compute its checksum (R140). -/
  | frame (cmd payload : Bytes)
  /-- FRAME_CK: frame a payload with a supplied checksum (R141). -/
  | frameCk (cmd payload : Bytes) (ck : U32)
  /-- PROC_HDR: validate a 24-byte header candidate (R121). Its operand is the extracted block. -/
  | procHdr (block : Bytes)
  /-- PROC_PAY: check and decode a payload (R124). Its operand is the extracted block. -/
  | procPay (block : Bytes)
  deriving DecidableEq, Repr

namespace Instr

/-- Whether the host can issue the operation: it has an opcode of R80. A micro-step has none (R84). -/
def isHostOp : Instr → Bool
  | reset _ _ => true
  | feed _ => true
  | status => true
  | frame _ _ => true
  | frameCk _ _ _ => true
  | procHdr _ => false
  | procPay _ => false

/-- The framer group of R80: FRAME and FRAME_CK. -/
def isFramerOp : Instr → Bool
  | reset _ _ => false
  | feed _ => false
  | status => false
  | frame _ _ => true
  | frameCk _ _ _ => true
  | procHdr _ => false
  | procPay _ => false

end Instr

end Sys2Proof
end

