-- ==== Sys2Proof/Machine/State.lean ====
section
/-! DEFINITION. The architectural state of one FPB instance (spec/10_state.md R20 to R35), the
results handed to the host (spec/30_encoding.md R85 to R88) and the host's calls
(spec/60_exceptions.md R166, R177). Plain data. -/

namespace Sys2Proof.Machine

/-- The configuration registers `CFG_MAGIC` and `CFG_MAX` (R28). -/
structure Profile where
  magic : U32
  maxMessageSize : U32
  deriving DecidableEq, Repr

/-- The Header register set (R29). -/
structure Header where
  /-- The command as raw bytes, 0 to 11 of them and none 0x00 when PROC_HDR builds it. -/
  cmd : Bytes
  /-- The declared payload length. -/
  size : U32
  /-- The declared checksum. -/
  checksum : U32
  deriving DecidableEq, Repr

/-- The Parser state (R23). `buf` is the view `chunks.flatten` (R24), so it has no field. -/
structure ParserState where
  /-- `buffered_chunks`, the FIFO, front first: the hidden partition of R31. -/
  chunks : List Bytes
  /-- `buffered_total` (R25). -/
  total : Nat
  /-- Bytes needed to complete the current step (R26). -/
  awaiting : U32
  /-- `current_header` (R27). -/
  hdr : Option Header
  deriving DecidableEq, Repr

/-- The Parser state after RESET (R35). -/
def ParserState.initial : ParserState :=
  { chunks := [], total := 0, awaiting := 24#32, hdr := none }

/-- The Parser's one two-valued status (R30). -/
inductive Phase where
  | awaitingHeader
  | awaitingPayload
  deriving DecidableEq, Repr

/-- The error kinds (R87, R161, R162). -/
inductive ErrorKind where
  | invalidMagic
  | malformedCommand
  | oversizedMessage
  | checksumMismatch
  | payloadDecodeError
  | commandTooLong
  | oversizedPayload
  deriving DecidableEq, Repr

/-- An event of a FEED (R86). -/
inductive Event where
  | packet (pkt : Packet)
  | error (kind : ErrorKind) (cause : Option Cause)
  deriving DecidableEq, Repr

/-- The record STATUS returns (R152). -/
structure StatusRecord where
  phase : Phase
  awaiting : U32
  total : Nat
  hdr : Option Header
  magic : U32
  max : U32
  deriving DecidableEq, Repr

/-- The result of a host operation (R85). -/
inductive Result where
  | done
  | events (list : List Event)
  | status (record : StatusRecord)
  /-- `Ok(frame bytes)`. -/
  | frame (bytes : Bytes)
  /-- `Err(kind)` of a Framer operation, kind 6 or 7. -/
  | frameError (kind : ErrorKind)
  deriving DecidableEq, Repr

/-- How the host issued a call, as far as R166 tells calls apart.
DESIGN CHOICE, safe (log 7): the host's input says it, since no operation takes time. -/
inductive Issue where
  /-- After the instance's previous operation returned. -/
  | sequential
  /-- While a FEED, RESET or STATUS of the instance has not returned (R166 item 3). -/
  | overlapping
  /-- From inside `hash256` or `decode` while the instance's FEED or FRAME runs (R166 item 4). -/
  | reentrant
  deriving DecidableEq, Repr

/-- One call of the host: how it is issued, and its descriptor (R81). -/
structure HostCall where
  issue : Issue
  descriptor : Bytes
  deriving DecidableEq, Repr

/-- The FPB has no fault: an error is an event or a Framer result (R160), and misuse is refused with
the Refused mark while the machine goes on (R166). Nothing raises a fault, so there is no
constructor. Safe. -/
inductive Fault where
  deriving DecidableEq, Repr

/-- Why an operation has no meaning in the model. A refusal of the FPB itself (R166) is none of
these: it is a next state with the Refused mark set (log 6). -/
inductive Refusal where
  /-- Raised by an arm of `exec` whose instruction has no meaning yet. No arm raises it. Safe. -/
  | notModelled (mnemonic : String)
  deriving DecidableEq, Repr

/-- One FPB instance: the record of R20, the event list of a FEED that is running (R15, R33), the
Refused mark (R166), and the model's two host ports. -/
structure State where
  /-- The configuration registers, none before the first RESET (R20, R34). -/
  cfg : Option Profile
  /-- The Parser state (R23). -/
  parser : ParserState
  /-- The events emitted so far by the FEED that is running, none between operations (R15, R33). -/
  inFeed : Option (List Event)
  /-- The Refused mark (R166), one for each instance. DESIGN CHOICE (log 23): the spec does not say
  whether it is one for each instance or one for the whole run. -/
  refusedMark : Bool
  /-- The model's own: the result the last operation returned to the host (R85), none where it
  returned none (log 4). -/
  result : Option Result
  /-- The model's own: the host's calls not yet taken, oldest first (log 1). -/
  pending : List HostCall
  deriving DecidableEq, Repr

/-- An instance before its first RESET (R34, R180): unconfigured. The Parser state holds no value
there. DESIGN CHOICE, safe (log 3): the record stands at its RESET value, and no rule reads it. -/
def State.powerOn : State :=
  { cfg := none
    parser := ParserState.initial
    inFeed := none
    refusedMark := false
    result := none
    pending := [] }

/-- The machine right after RESET(magic, max) (R35, R181): every field at the value R35 gives, with
the operands of that RESET open (log 2). -/
def State.reset : State :=
  { cfg := some { magic := Config.profileMagic, maxMessageSize := Config.profileMax }
    parser := ParserState.initial
    inFeed := none
    refusedMark := false
    result := some .done
    pending := [] }

end Sys2Proof.Machine
end

