-- ==== Sys2Proof/Machine/Flags.lean ====
section
/-! DEFINITION. The FPB's one status, the phase (spec/10_state.md R30), the event and error codes
(spec/30_encoding.md R86, R87) and the conditions of the Framer's checks (spec/42_framer.md R144).
There is no other flag or condition code. -/

namespace Sys2Proof.Machine

/-- `phase(s)` (R30), read from `hdr` and never from `awaiting` (R27). -/
def ParserState.phase (p : ParserState) : Phase :=
  match p.hdr with
  | none => .awaitingHeader
  | some _ => .awaitingPayload

/-- The phase bit `P` (R84), also STATUS's number for the phase (R152): 0 and 1. -/
def Phase.bit : Phase → Bool
  | .awaitingHeader => false
  | .awaitingPayload => true

/-- Error kind codes (R87). -/
def ErrorKind.code : ErrorKind → Nat
  | .invalidMagic => 1
  | .malformedCommand => 2
  | .oversizedMessage => 3
  | .checksumMismatch => 4
  | .payloadDecodeError => 5
  | .commandTooLong => 6
  | .oversizedPayload => 7

/-- The event kind code: 0 for a Packet, else the error's kind (R86, R87). -/
def Event.code : Event → Nat
  | .packet _ => 0
  | .error kind _ => kind.code

/-- The first check of FRAME_CHECKS (R144). -/
def commandTooLong (cmd : Bytes) : Bool := decide (cmd.length > cmdFieldSize)

/-- A byte count above `MAX_MESSAGE_SIZE`, as unsigned values (R122, R144). -/
def exceedsMax (cfg : Profile) (n : Nat) : Bool := decide (n > cfg.maxMessageSize.toNat)

/-- The checksum test of PROC_PAY (R125): whether the digest's first four bytes differ from the
declared checksum. The other 28 digest bytes are never read. -/
def checksumDiffers (d : Digest) (declared : U32) : Bool := le32 d.toList 0 != declared

end Sys2Proof.Machine
end

