-- ==== Sys2Proof/Machine/Ops.lean ====
section
/-! DEFINITION. The named operations over the state: the FIFO (spec/40_parser_feed.md R100, R102),
reporting an error (spec/60_exceptions.md R160, R167), returning a result (spec/30_encoding.md R85)
and refusing an operation (spec/60_exceptions.md R166). -/

namespace Sys2Proof.Machine

/-! ## The FIFO -/

/-- `buf`, the byte content of the queue, front first (R24). -/
def ParserState.buf (p : ParserState) : Bytes := p.chunks.flatten

/-- FEED's step 1: the chunk at the back of the queue, its length added to `total` (R100). The chunk
is a value, so it is the copy that R64 asks for (log 20). -/
def ParserState.append (p : ParserState) (chunk : Bytes) : ParserState :=
  { p with chunks := p.chunks ++ [chunk], total := p.total + chunk.length }

/-- `n` bytes from the front of the queue, and the queue that stays (R102): a front chunk wholly
taken is removed, a longer one is split and its rest stays at the front. -/
def takeFront (n : Nat) : List Bytes → Bytes × List Bytes
  | [] => ([], [])
  | c :: cs =>
    if n = 0 then ([], c :: cs)
    else if c.length ≤ n then
      (c ++ (takeFront (n - c.length) cs).1, (takeFront (n - c.length) cs).2)
    else (c.take n, c.drop n :: cs)

/-- EXTRACT(n): the block taken, and the Parser state without it (R102). -/
def ParserState.extract (p : ParserState) (n : Nat) : Bytes × ParserState :=
  ((takeFront n p.chunks).1, { p with chunks := (takeFront n p.chunks).2, total := p.total - n })

/-- FEED's loop test `s.total >= s.awaiting` (R101). -/
def ParserState.unitComplete (p : ParserState) : Bool := decide (p.total ≥ p.awaiting.toNat)

/-- `s.hdr <- none; s.awaiting <- 24`: back to AwaitingHeader (R121, R124, R127). -/
def ParserState.toAwaitingHeader (p : ParserState) : ParserState :=
  { p with hdr := none, awaiting := 24#32 }

/-- `s.hdr <- some(h); s.awaiting <- size`: on to AwaitingPayload (R121). -/
def ParserState.toAwaitingPayload (p : ParserState) (h : Header) : ParserState :=
  { p with hdr := some h, awaiting := h.size }

/-! ## A FEED that is running -/

/-- What a running FEED changes: the Parser state and the event list it will return (R100). -/
structure Run where
  parser : ParserState
  events : List Event
  deriving DecidableEq, Repr

/-- `emit(e)` (R15). -/
def Run.emit (r : Run) (e : Event) : Run := { r with events := r.events ++ [e] }

/-- An error of a block (R160, R167): the event, and the Parser back in AwaitingHeader with
`awaiting = 24`. No state is saved and control goes to no handler: the FEED goes on. -/
def Run.raise (r : Run) (kind : ErrorKind) (cause : Option Cause) : Run :=
  { parser := r.parser.toAwaitingHeader, events := r.events ++ [.error kind cause] }

/-! ## The state of the instance -/

/-- `return v`: the result handed to the host (R15, R85). -/
def State.returns (s : State) (v : Result) : State := { s with result := some v }

/-- The configuration latched by RESET (R28, R150). -/
def State.setCfg (s : State) (cfg : Profile) : State := { s with cfg := some cfg }

/-- Writes the Parser state. -/
def State.setParser (s : State) (p : ParserState) : State := { s with parser := p }

/-- The calls the host has issued and the FPB has not taken. -/
def State.setPending (s : State) (calls : List HostCall) : State := { s with pending := calls }

/-- A FEED that is running, after a micro-step of it (R33). -/
def State.setRun (s : State) (r : Run) : State :=
  { s with parser := r.parser, inFeed := some r.events }

/-- A FEED that returns its event list (R100). -/
def State.returnsRun (s : State) (r : Run) : State :=
  { s with parser := r.parser, inFeed := none, result := some (.events r.events) }

/-- A refused operation (R166): no FPB state changes, no result is returned, and the Refused mark
is set. It stays set for the rest of the run: nothing clears it. -/
def State.refuse (s : State) : State := { s with refusedMark := true, result := none }

/-- A refusal as the outcome of an operation: the machine goes on (R166, log 6). -/
def refuse (s : State) : Host.Outcome State Fault Refusal := .next s.refuse

/-- An operation of R166 item 3, FEED, RESET or STATUS, runs only when no FEED of the instance is
running. -/
def whenIdle (s : State) (run : Host.Outcome State Fault Refusal) :
    Host.Outcome State Fault Refusal :=
  match s.inFeed with
  | none => run
  | some _ => refuse s

/-- An operation other than RESET runs only on a configured instance (R34, R166 item 1). -/
def whenConfigured (s : State) (run : Profile → Host.Outcome State Fault Refusal) :
    Host.Outcome State Fault Refusal :=
  match s.cfg with
  | some cfg => run cfg
  | none => refuse s

/-- Whether the way a call was issued makes it a refused one (R166 items 3 and 4, R174, R184, R187):
an overlapping FEED, RESET or STATUS, and any call from inside an external function. An overlapping
FRAME or FRAME_CK runs. -/
def issueRefused : Issue → Instr → Bool
  | .sequential, _ => false
  | .overlapping, i => !i.isFramerOp
  | .reentrant, _ => true

end Sys2Proof.Machine
end

