-- ==== Sys2Proof/Machine/Control.lean ====
section
/-! DEFINITION. The control operations RESET and STATUS (spec/43_control.md R150 to R153). -/

namespace Sys2Proof.Machine

/-- RESET (R150): latch the profile and put the Parser in its initial state. It discards what the
Parser holds and emits no event for it (R151). Legal in every state, configured or not, but not
while a FEED is running (R166 item 3). -/
def execReset (magic max : U32) (s : State) : Host.Outcome State Fault Refusal :=
  whenIdle s (.next (((s.setCfg { magic := magic, maxMessageSize := max }).setParser
    ParserState.initial).returns .done))

/-- The record of STATUS (R152). -/
def statusRecord (cfg : Profile) (p : ParserState) : StatusRecord :=
  { phase := p.phase
    awaiting := p.awaiting
    total := p.total
    hdr := p.hdr
    magic := cfg.magic
    max := cfg.maxMessageSize }

/-- STATUS (R152): no state written (R153). -/
def execStatus (s : State) : Host.Outcome State Fault Refusal :=
  whenIdle s (whenConfigured s fun cfg =>
    .next (s.returns (.status (statusRecord cfg s.parser))))

end Sys2Proof.Machine
end

