-- ==== Sys2Proof/Machine/Framer.lean ====
section
/-! DEFINITION. The Framer: FRAME and FRAME_CK (spec/42_framer.md R140 to R149). It holds no state
(spec/10_state.md R37) and may run while a FEED runs (spec/60_exceptions.md R174). -/

namespace Sys2Proof.Machine

/-- FRAME_CHECKS (R144): CommandTooLong before OversizedPayload, or none. -/
def frameChecks (cfg : Profile) (cmd payload : Bytes) : Option ErrorKind :=
  if commandTooLong cmd then some .commandTooLong
  else if exceedsMax cfg payload.length then some .oversizedPayload
  else none

/-- The command field as the Framer writes it: left-justified, padded with 0x00 to 12 bytes (R142). -/
def cmdField (cmd : Bytes) : Bytes := cmd ++ zeros (cmdFieldSize - cmd.length)

/-- BUILD(cmd, payload, ck) (R142): five writes into a fresh buffer of `24 + |payload|` bytes. -/
def buildFrame (cfg : Profile) (cmd payload : Bytes) (ck : U32) : Bytes :=
  let f := zeros (headerSize + payload.length)
  let f := memWrite f magicOffset 4 (wle32 cfg.magic)
  let f := memWrite f cmdOffset cmdFieldSize (cmdField cmd)
  let f := memWrite f sizeOffset 4 (wle32 (BitVec.ofNat 32 payload.length))
  let f := memWrite f checksumOffset 4 (wle32 ck)
  memWrite f payloadOffset payload.length payload

/-- The computed checksum of FRAME: the first four digest bytes (R140, R143). -/
def payloadChecksum (X : External) (payload : Bytes) : U32 := le32 (X.hash256 payload).toList 0

/-- The result of a Framer operation: `Err(kind)` and no frame (R145), or `Ok(frame)` (R88). -/
def frameResult (cfg : Profile) (cmd payload : Bytes) (ck : U32) : Result :=
  match frameChecks cfg cmd payload with
  | some kind => .frameError kind
  | none => .frame (buildFrame cfg cmd payload ck)

/-- FRAME with given external functions (R140). -/
def frameWith (X : External) (cmd payload : Bytes) (s : State) :
    Host.Outcome State Fault Refusal :=
  whenConfigured s fun cfg =>
    .next (s.returns (frameResult cfg cmd payload (payloadChecksum X payload)))

/-- FRAME (R140). -/
def execFrame (cmd payload : Bytes) (s : State) : Host.Outcome State Fault Refusal :=
  frameWith Config.external cmd payload s

/-- FRAME_CK (R141): the supplied checksum is written as given (R148). -/
def execFrameCk (cmd payload : Bytes) (ck : U32) (s : State) :
    Host.Outcome State Fault Refusal :=
  whenConfigured s fun cfg => .next (s.returns (frameResult cfg cmd payload ck))

end Sys2Proof.Machine
end

