-- ==== Sys2Proof/Machine/Operands.lean ====
section
/-! DEFINITION. Operand assembly of a header block (spec/30_encoding.md R78) and its classification
(R79), and the selection of a micro-step's operand length. -/

namespace Sys2Proof.Machine

/-- The magic field of a header block (R72, R78). -/
def blockMagic (b : Bytes) : U32 := le32 b magicOffset

/-- The field index of the command's terminator: the first 0x00 among block bytes 4 to 15 (R73). -/
def blockTerminator (b : Bytes) : Option Nat := firstNul b cmdOffset cmdFieldSize

/-- The command bytes before a terminator at field index `k` (R78). The padding after it is
don't-care (R83). -/
def blockCmd (b : Bytes) (k : Nat) : Bytes := memRead b cmdOffset k

/-- The declared payload length (R74, R78). -/
def blockSize (b : Bytes) : U32 := le32 b sizeOffset

/-- The declared checksum (R75, R78). -/
def blockChecksum (b : Bytes) : U32 := le32 b checksumOffset

/-- The classes of R79. -/
inductive HeaderClass where
  | invalidMagic
  | malformedCommand
  | oversizedMessage
  | valid (h : Header)
  deriving DecidableEq, Repr

/-- Classification of a header block, in the order magic, terminator, size (R79, R121, R128). -/
def classifyHeader (cfg : Profile) (b : Bytes) : HeaderClass :=
  if blockMagic b ≠ cfg.magic then .invalidMagic
  else match blockTerminator b with
    | none => .malformedCommand
    | some k =>
      if exceedsMax cfg (blockSize b).toNat then .oversizedMessage
      else .valid { cmd := blockCmd b k, size := blockSize b, checksum := blockChecksum b }

end Sys2Proof.Machine
end

