-- ==== Sys2Proof/Machine/Parser.lean ====
section
/-! DEFINITION. The Parser: PROC_HDR and PROC_PAY (spec/41_parser_process.md R120 to R134), the
drain loop and FEED (spec/40_parser_feed.md R100 to R111). The functions over `Run` are the spec's
pseudocode; the `exec` functions are the instructions' meanings. -/

namespace Sys2Proof.Machine

/-- PROC_HDR(b) (R121): the class of the block decides; an error is reported and resynchronises
blindly (R123), a valid header starts its payload. -/
def procHdr (cfg : Profile) (b : Bytes) (r : Run) : Run :=
  match classifyHeader cfg b with
  | .invalidMagic => r.raise .invalidMagic none
  | .malformedCommand => r.raise .malformedCommand none
  | .oversizedMessage => r.raise .oversizedMessage none
  | .valid h => { r with parser := r.parser.toAwaitingPayload h }

/-- PROC_PAY(b) (R124) for the Header `h`: the checksum before the codec (R128), the Header discarded
on every path (R127), and exactly one event. -/
def procPay (X : External) (h : Header) (b : Bytes) (r : Run) : Run :=
  if checksumDiffers (X.hash256 b) h.checksum then r.raise .checksumMismatch none
  else match X.decode h.cmd b with
    | .err c => r.raise .payloadDecodeError (some c)
    | .ok p => Run.emit { r with parser := r.parser.toAwaitingHeader } (.packet p)

/-- PROCESS(block) (R120): the arm is chosen by `hdr`. -/
def processBlock (X : External) (cfg : Profile) (b : Bytes) (r : Run) : Run :=
  match r.parser.hdr with
  | none => procHdr cfg b r
  | some h => procPay X h b r

/-- One iteration of the drain loop: EXTRACT(awaiting), then PROCESS (R101). -/
def drainOnce (X : External) (cfg : Profile) (r : Run) : Run :=
  processBlock X cfg (r.parser.extract r.parser.awaiting.toNat).1
    { r with parser := (r.parser.extract r.parser.awaiting.toNat).2 }

/-- The drain loop `while s.total >= s.awaiting` (R101), with at most `fuel` iterations. -/
def drain (X : External) (cfg : Profile) : Nat → Run → Run
  | 0, r => r
  | fuel + 1, r => if r.parser.unitComplete then drain X cfg fuel (drainOnce X cfg r) else r

/-- Enough iterations for `n` buffered bytes: two iterations in a row take at least one byte
(R103). DEDUCED, safe (log 13): the loop ends by its own test before the fuel does. -/
def drainFuel (n : Nat) : Nat := 2 * n + 2

/-- FEED(chunk) on the Parser state (R100): append, then drain. -/
def feedRun (X : External) (cfg : Profile) (chunk : Bytes) (p : ParserState) : Run :=
  drain X cfg (drainFuel (p.append chunk).total) { parser := p.append chunk, events := [] }

/-- FEED with given external functions (R100): one atomic transition (R7). -/
def feedWith (X : External) (chunk : Bytes) (s : State) : Host.Outcome State Fault Refusal :=
  whenIdle s (whenConfigured s fun cfg => .next (s.returnsRun (feedRun X cfg chunk s.parser)))

/-- FEED (R100). -/
def execFeed (chunk : Bytes) (s : State) : Host.Outcome State Fault Refusal :=
  feedWith Config.external chunk s

/-- A micro-step of the FEED that is running (R84, R33): `step` gives the configuration and the run.
Outside a FEED it is not issuable and so is refused (R84, R177, log 8). -/
def whenInFeed (s : State) (run : Profile → Run → Host.Outcome State Fault Refusal) :
    Host.Outcome State Fault Refusal :=
  match s.cfg, s.inFeed with
  | some cfg, some events => run cfg { parser := s.parser, events := events }
  | none, _ => refuse s
  | some _, none => refuse s

/-- PROC_HDR (R121): selected in AwaitingHeader, for a block of 24 bytes. -/
def execProcHdr (block : Bytes) (s : State) : Host.Outcome State Fault Refusal :=
  whenInFeed s fun cfg r =>
    match s.parser.hdr with
    | none => if block.length = headerSize then .next (s.setRun (procHdr cfg block r)) else refuse s
    | some _ => refuse s

/-- PROC_PAY with given external functions (R124): selected in AwaitingPayload, for a block of
`hdr.size` bytes. -/
def procPayWith (X : External) (block : Bytes) (s : State) : Host.Outcome State Fault Refusal :=
  whenInFeed s fun _ r =>
    match s.parser.hdr with
    | none => refuse s
    | some h =>
      if block.length = h.size.toNat then .next (s.setRun (procPay X h block r)) else refuse s

/-- PROC_PAY (R124). -/
def execProcPay (block : Bytes) (s : State) : Host.Outcome State Fault Refusal :=
  procPayWith Config.external block s

/-! ## The incremental implementation of R110 -/

/-- The chunk absorbed one byte at a time, the drain loop run after each byte (R110). -/
def feedSerial (X : External) (cfg : Profile) : Bytes → ParserState → Run
  | [], p => { parser := p, events := [] }
  | b :: bs, p =>
    { parser := (feedSerial X cfg bs (feedRun X cfg [b] p).parser).parser
      events := (feedRun X cfg [b] p).events
        ++ (feedSerial X cfg bs (feedRun X cfg [b] p).parser).events }

end Sys2Proof.Machine
end

