-- ==== Sys2Proof/Machine/Dispatch.lean ====
section
/-! DEFINITION. One arm for each row of spec/opcode_table.json. -/

namespace Sys2Proof.Machine

def exec (i : Instr) (s : State) : Host.Outcome State Fault Refusal :=
  match i with
  | .reset magic max => Sys2Proof.Machine.execReset magic max s
  | .feed chunk => Sys2Proof.Machine.execFeed chunk s
  | .status => Sys2Proof.Machine.execStatus s
  | .frame cmd payload => Sys2Proof.Machine.execFrame cmd payload s
  | .frameCk cmd payload ck => Sys2Proof.Machine.execFrameCk cmd payload ck s
  | .procHdr block => Sys2Proof.Machine.execProcHdr block s
  | .procPay block => Sys2Proof.Machine.execProcPay block s

end Sys2Proof.Machine
end

