-- ==== Sys2Proof/WellFormed.lean ====
section
/-! DEFINITION. Which typed operations the encodings of spec/30_encoding.md can carry: the length
fields `LEN` and `PLEN` are u32 and `CLEN` is a byte (R81), a header block has 24 bytes (R121), and
a payload block is counted by the u32 `awaiting` (R26, R124). -/

namespace Sys2Proof

/-- A byte count that a u32 length field holds (R81, D32). -/
def fitsU32 (n : Nat) : Bool := decide (n < 2 ^ 32)

/-- A command length that the byte `CLEN` holds (R81). -/
def fitsClen (n : Nat) : Bool := decide (n < 256)

/-- The operand lengths that an encoding of the operation can carry (R81, R84). -/
def Instr.wellFormed : Instr → Bool
  | .reset _ _ => true
  | .feed chunk => fitsU32 chunk.length
  | .status => true
  | .frame cmd payload => fitsClen cmd.length && fitsU32 payload.length
  | .frameCk cmd payload _ => fitsClen cmd.length && fitsU32 payload.length
  | .procHdr block => block.length == 24
  | .procPay block => fitsU32 block.length

end Sys2Proof
end

