-- ==== Sys2Proof/Decode.lean ====
section
/-! DEFINITION. The host operation descriptors of spec/30_encoding.md R80, R81, R82 and the phase
bit of R84: a total decoder, then the encoder written from the same tables. -/

namespace Sys2Proof

/-- The opcode byte of RESET (R80). -/
def opReset : Byte := 0x00#8
/-- The opcode byte of FEED (R80). -/
def opFeed : Byte := 0x01#8
/-- The opcode byte of STATUS (R80). -/
def opStatus : Byte := 0x02#8
/-- The opcode byte of FRAME (R80). -/
def opFrame : Byte := 0x10#8
/-- The opcode byte of FRAME_CK (R80). -/
def opFrameCk : Byte := 0x11#8

/-- The five opcodes of R80. Every other opcode byte is reserved (R82). -/
def opcodes : List Byte := [opReset, opFeed, opStatus, opFrame, opFrameCk]

/-- The first `n` bytes and the rest, or none when there are fewer. -/
def takeBytes (n : Nat) (b : Bytes) : Option (Bytes × Bytes) :=
  if n ≤ b.length then some (b.take n, b.drop n) else none

/-- One u32 operand, little-endian (R81, R52), and the rest. -/
def takeU32 (b : Bytes) : Option (U32 × Bytes) :=
  (takeBytes 4 b).map fun r => (le32 r.1 0, r.2)

/-- A byte string preceded by its u32 length, the fields `LEN` and `PLEN` of R81. -/
def takeCounted32 (b : Bytes) : Option (Bytes × Bytes) :=
  (takeU32 b).bind fun r => takeBytes r.1.toNat r.2

/-- A byte string preceded by its length byte, the field `CLEN` of R81. -/
def takeCounted8 (b : Bytes) : Option (Bytes × Bytes) :=
  (takeBytes 1 b).bind fun r => takeBytes (byteAt r.1 0).toNat r.2

/-- Operands of RESET: `magic`, `max` (R81). -/
def decodeResetOperands (b : Bytes) : Option (Instr × Bytes) :=
  (takeU32 b).bind fun m => (takeU32 m.2).map fun x => (.reset m.1 x.1, x.2)

/-- Operands of FEED: `LEN`, `chunk` (R81). -/
def decodeFeedOperands (b : Bytes) : Option (Instr × Bytes) :=
  (takeCounted32 b).map fun c => (.feed c.1, c.2)

/-- Operands of FRAME: `CLEN`, `cmd`, `PLEN`, `payload` (R81). -/
def decodeFrameOperands (b : Bytes) : Option (Instr × Bytes) :=
  (takeCounted8 b).bind fun c => (takeCounted32 c.2).map fun p => (.frame c.1 p.1, p.2)

/-- Operands of FRAME_CK: as FRAME, then `ck` (R81). -/
def decodeFrameCkOperands (b : Bytes) : Option (Instr × Bytes) :=
  (takeCounted8 b).bind fun c => (takeCounted32 c.2).bind fun p =>
    (takeU32 p.2).map fun k => (.frameCk c.1 p.1 k.1, k.2)

/-- The operation at the front of a byte stream, and the bytes after it (R81, R91). None for a
reserved opcode and for a descriptor that ends early (R82). -/
def decodeStream : Bytes → Option (Instr × Bytes)
  | [] => none
  | op :: operands =>
    if op = opReset then decodeResetOperands operands
    else if op = opFeed then decodeFeedOperands operands
    else if op = opStatus then some (.status, operands)
    else if op = opFrame then decodeFrameOperands operands
    else if op = opFrameCk then decodeFrameCkOperands operands
    else none

/-- One descriptor: its byte count must be its table length, else it is malformed (R81, R82). -/
def decodeDescriptor (b : Bytes) : Option Instr :=
  match decodeStream b with
  | some (i, []) => some i
  | some (_, _ :: _) => none
  | none => none

/-- The micro-step that the phase bit `P` selects for an extracted block (R84, R120):
0 selects PROC_HDR, 1 selects PROC_PAY. -/
def decodeMicro (p : Bool) (block : Bytes) : Instr :=
  if p then .procPay block else .procHdr block

/-- The two encodings of operations: a host descriptor (R81), or a phase bit with the block that
EXTRACT took (R84). -/
inductive Encoding where
  | descriptor (bytes : Bytes)
  | micro (p : Bool) (block : Bytes)
  deriving DecidableEq, Repr

/-- The decoder over both encodings. A block whose length no micro-step takes is rejected. -/
def decode : Encoding → Option Instr
  | .descriptor b => decodeDescriptor b
  | .micro p block =>
    if (decodeMicro p block).wellFormed then some (decodeMicro p block) else none

/-- Decoding of a program, the concatenation of its descriptors (R91), with at most `fuel`
operations. None when some operation does not decode. -/
def decodeProgramFuel : Nat → Bytes → Option (List Instr)
  | _, [] => some []
  | 0, _ :: _ => none
  | fuel + 1, b :: bs =>
    match decodeStream (b :: bs) with
    | some (i, rest) => (decodeProgramFuel fuel rest).map (i :: ·)
    | none => none

/-- Decoding of a program (R91). Each descriptor has at least one byte, so the byte count bounds
the number of operations. -/
def decodeProgram (b : Bytes) : Option (List Instr) := decodeProgramFuel b.length b

/-- A u32 length field of `n` (R81). -/
def lengthField32 (n : Nat) : Bytes := wle32 (BitVec.ofNat 32 n)

/-- The length byte `CLEN` of `n` (R81). -/
def lengthField8 (n : Nat) : Bytes := [BitVec.ofNat 8 n]

/-- The descriptor bytes of a host operation (R81). A micro-step has no descriptor (R84). -/
def descriptorBytes : Instr → Bytes
  | .reset magic max => opReset :: (wle32 magic ++ wle32 max)
  | .feed chunk => opFeed :: (lengthField32 chunk.length ++ chunk)
  | .status => [opStatus]
  | .frame cmd payload =>
    opFrame :: (lengthField8 cmd.length ++ cmd ++ lengthField32 payload.length ++ payload)
  | .frameCk cmd payload ck =>
    opFrameCk :: (lengthField8 cmd.length ++ cmd ++ lengthField32 payload.length ++ payload
      ++ wle32 ck)
  | .procHdr _ => []
  | .procPay _ => []

/-- The encoder, written from the tables of R80, R81 and R84. -/
def encode : Instr → Encoding
  | .reset magic max => .descriptor (descriptorBytes (.reset magic max))
  | .feed chunk => .descriptor (descriptorBytes (.feed chunk))
  | .status => .descriptor (descriptorBytes .status)
  | .frame cmd payload => .descriptor (descriptorBytes (.frame cmd payload))
  | .frameCk cmd payload ck => .descriptor (descriptorBytes (.frameCk cmd payload ck))
  | .procHdr block => .micro false block
  | .procPay block => .micro true block

/-- The encoding of a program: the concatenation of its descriptors in program order (R91). -/
def encodeProgram (is : List Instr) : Bytes := is.flatMap descriptorBytes

/-- The total length column of R81. A micro-step has no descriptor. -/
def tableLength : Instr → Nat
  | .reset _ _ => 9
  | .feed chunk => 5 + chunk.length
  | .status => 1
  | .frame cmd payload => 6 + cmd.length + payload.length
  | .frameCk cmd payload _ => 10 + cmd.length + payload.length
  | .procHdr _ => 0
  | .procPay _ => 0

/-- How many bytes the descriptor that begins with `b` has by R81, operand bytes that are not
there read as 0x00. For a reserved opcode, the bytes that are there. -/
def descriptorLength (b : Bytes) : Nat :=
  let op := byteAt b 0
  let clen := (byteAt b 1).toNat
  if op = opReset then 9
  else if op = opFeed then 5 + (le32 b 1).toNat
  else if op = opStatus then 1
  else if op = opFrame then 6 + clen + (le32 b (2 + clen)).toNat
  else if op = opFrameCk then 10 + clen + (le32 b (2 + clen)).toNat
  else b.length

/-- The bytes of a number whose bit 0 is the least significant bit of the first byte. -/
def tableBytes (nbits w : Nat) : Bytes :=
  (List.range ((nbits + 7) / 8)).map fun i => BitVec.ofNat 8 (w / 2 ^ (8 * i))

/-- The whole descriptor of a table word: its bytes, then operand bytes of 0x00 up to its length. -/
def tableDescriptor (nbits w : Nat) : Bytes :=
  tableBytes nbits w ++ zeros (descriptorLength (tableBytes nbits w) - (tableBytes nbits w).length)

/-- The block of a micro-step's table word, all of its bits 0: 24 bytes for PROC_HDR, and the
empty payload for PROC_PAY. -/
def tableBlock (p : Bool) : Bytes := if p then [] else zeros headerSize

/-- What the decoder reads from a row of spec/opcode_table.json whose bits are `w`. A row of one bit
is the phase bit `P` of R84 (log 14). A wider row is a host descriptor. -/
def decodeTableWord (nbits w : Nat) : Option Instr :=
  if nbits = 1 then decode (.micro (w.testBit 0) (tableBlock (w.testBit 0)))
  else decode (.descriptor (tableDescriptor nbits w))

end Sys2Proof
end

