-- ==== Sys2Proof/Machine/Fetch.lean ====
section
/-! DEFINITION. What the next step does: the FPB has no program counter (spec/10_state.md R22). A
FEED that is running is sequenced by (phase, `awaiting`); otherwise the host's next call is taken
(spec/70_reset_and_hazards.md R180). -/

namespace Sys2Proof.Machine

/-- What `step` has to do: run one operation on a state, or nothing but go to a state. -/
inductive Fetched where
  | run (i : Instr) (s : State)
  | goTo (s : State)
  deriving DecidableEq, Repr

/-- The next part of a FEED that is running (R101): the micro-step that the phase selects for the
block EXTRACT takes (R84, R120), or the return when no unit is complete. -/
def fetchMicro (events : List Event) (s : State) : Fetched :=
  if s.parser.unitComplete then
    .run (decodeMicro s.parser.phase.bit (s.parser.extract s.parser.awaiting.toNat).1)
      (s.setParser (s.parser.extract s.parser.awaiting.toNat).2)
  else .goTo (s.returnsRun { parser := s.parser, events := events })

/-- A call of the host, taken from the queue (R81, R82, R166): the operation its descriptor holds, or
a refusal when the descriptor is reserved or malformed or the call may not be issued so. -/
def fetchCall (call : HostCall) (s : State) : Fetched :=
  match decodeDescriptor call.descriptor with
  | none => .goTo s.refuse
  | some i => if issueRefused call.issue i then .goTo s.refuse else .run i s

/-- What comes next in a state. With no FEED running and no call pending, the FPB holds its state
unchanged (R176). -/
def fetch (s : State) : Fetched :=
  match s.inFeed with
  | some events => fetchMicro events s
  | none =>
    match s.pending with
    | [] => .goTo s
    | call :: calls => fetchCall call (s.setPending calls)

/-- The state in which a FEED is at the extraction of `block` with phase bit `p` (R33, R84). -/
def State.withMicro (s : State) (p : Bool) (block : Bytes) : State :=
  { s with
    parser :=
      { chunks := [block]
        total := block.length
        awaiting := BitVec.ofNat 32 block.length
        hdr := if p then some { cmd := [], size := BitVec.ofNat 32 block.length, checksum := 0#32 }
               else none }
    inFeed := some [] }

/-- The state in which the host's next call is `descriptor`, issued after the last one returned. -/
def State.withCall (s : State) (descriptor : Bytes) : State :=
  { s with
    inFeed := none
    pending := { issue := .sequential, descriptor := descriptor } :: s.pending }

/-- The state whose next step runs a row of spec/opcode_table.json with bits `w` (log 1, log 14,
log 15). -/
def placeTableWord (s : State) (nbits w : Nat) : State :=
  if nbits = 1 then s.withMicro (w.testBit 0) (tableBlock (w.testBit 0))
  else s.withCall (tableDescriptor nbits w)

end Sys2Proof.Machine
end

