-- ==== Sys2Proof/Machine/Step.lean ====
section
/-! DEFINITION. One step: a host operation, taken whole (spec/00_scope.md R7), or in a state inside a
FEED one micro-step of it (spec/10_state.md R33). No step that starts between operations ends inside
a FEED. -/

namespace Sys2Proof.Machine

/-- One step of the machine. -/
def step (s : State) : Host.Outcome State Fault Refusal :=
  match fetch s with
  | .run i t => exec i t
  | .goTo t => .next t

/-- `s` with a row of the opcode table placed where `step` fetches next. -/
def State.withFetchWord (s : State) (nbits w : Nat) : State := placeTableWord s nbits w

end Sys2Proof.Machine
end

