-- ==== Sys2Proof/Machine/Pseudo.lean ====
section
/-! DEFINITION. The pseudo-operations LOOPBACK and FEEDSPLIT (spec/30_encoding.md R90), programs as
queues of calls (R91), and what a caller reads of a FEED. -/

namespace Sys2Proof.Machine

/-- LOOPBACK (R90): FRAME, then FEED of the frame on the same instance when FRAME returns `Ok`. No
FEED follows an `Err`, nor a FRAME that is refused (log 16). -/
def loopback (cmd payload : Bytes) (s : State) : Host.Outcome State Fault Refusal :=
  match exec (.frame cmd payload) s with
  | .next t =>
    match t.result with
    | some (.frame f) => exec (.feed f) t
    | _ => .next t
  | .fault r => .fault r
  | .refused r => .refused r

/-- The consecutive `n`-byte pieces of a byte sequence, the last one shorter if need be (R90), at
most `fuel` of them. -/
def piecesFuel (n : Nat) : Nat → Bytes → List Bytes
  | 0, _ => []
  | _ + 1, [] => []
  | fuel + 1, b :: bs => (b :: bs).take n :: piecesFuel n fuel ((b :: bs).drop n)

/-- The pieces of FEEDSPLIT (R90). A piece has at least one byte when `n` is not 0, so the byte count
bounds their number. -/
def pieces (n : Nat) (b : Bytes) : List Bytes := piecesFuel n b.length b

/-- FEEDSPLIT n (R90) as the host operations it expands to. -/
def feedSplit (n : Nat) (b : Bytes) : List Instr := (pieces n b).map .feed

/-- The event list a FEED has just returned; empty when the last result is no event list. -/
def State.returnedEvents (s : State) : List Event :=
  match s.result with
  | some (.events l) => l
  | _ => []

/-- FEEDs one after the other, their event lists concatenated (R104). -/
def feedAll : List Bytes → State → State × List Event
  | [], s => (s, [])
  | c :: cs, s =>
    match exec (.feed c) s with
    | .next t => ((feedAll cs t).1, t.returnedEvents ++ (feedAll cs t).2)
    | .fault _ => (s, [])
    | .refused _ => (s, [])

/-- The calls of a program, one operation issued after the other has returned (R91, R60). -/
def programCalls (is : List Instr) : List HostCall :=
  is.map fun i => { issue := .sequential, descriptor := descriptorBytes i }

/-- The host issues a program given as its bytes (R91): its descriptors join the queue. None when
some operation of it does not decode. -/
def State.issueProgram (s : State) (program : Bytes) : Option State :=
  (decodeProgram program).map fun is => s.setPending (s.pending ++ programCalls is)

end Sys2Proof.Machine
end

