-- ==== Sys2Proof/Machine/Assembler.lean ====
section
/-! DEFINITION. The assembly text of host programs (spec/30_encoding.md R89, R90, R91): one operation
on a line, read into operations and pseudo-operations. -/

namespace Sys2Proof.Machine

/-- What one line of text holds (R89, R90). -/
inductive AsmLine where
  /-- Nothing, or a comment only. -/
  | blank
  | op (i : Instr)
  | loopback (cmd payload : Bytes)
  | feedSplit (n : Nat) (bytes : Bytes)
  deriving DecidableEq, Repr

/-- A blank that may stand between the parts of a line. -/
def isBlank (c : Char) : Bool := c == ' ' || c == '\t'

def skipBlanks (cs : List Char) : List Char := cs.dropWhile isBlank

/-- The value of a hex digit. -/
def hexValue (c : Char) : Option Nat :=
  if '0' ≤ c ∧ c ≤ '9' then some (c.toNat - '0'.toNat)
  else if 'a' ≤ c ∧ c ≤ 'f' then some (c.toNat - 'a'.toNat + 10)
  else if 'A' ≤ c ∧ c ≤ 'F' then some (c.toNat - 'A'.toNat + 10)
  else none

/-- The value of a decimal digit. -/
def decValue (c : Char) : Option Nat :=
  if '0' ≤ c ∧ c ≤ '9' then some (c.toNat - '0'.toNat) else none

/-- A byte of two hex digits. -/
def hexByte (a b : Char) : Option Byte :=
  (hexValue a).bind fun x => (hexValue b).map fun y => BitVec.ofNat 8 (16 * x + y)

/-- The end of a part of a line: a comma, or the semicolon of a comment (R89). -/
def endsPart (c : Char) : Bool := c == ',' || c == ';'

/-- Pairs of hex digits in stream order, blanks allowed between them (R89). -/
def hexPairs : List Char → Option (Bytes × List Char)
  | [] => some ([], [])
  | [a] => if isBlank a then some ([], []) else if endsPart a then some ([], [a]) else none
  | a :: b :: cs =>
    if isBlank a then hexPairs (b :: cs)
    else if endsPart a then some ([], a :: b :: cs)
    else (hexByte a b).bind fun x => (hexPairs cs).map fun r => (x :: r.1, r.2)

/-- `<hex bytes>`: `-` for the empty sequence, else pairs of hex digits (R89). -/
def hexBytes (cs : List Char) : Option (Bytes × List Char) :=
  match skipBlanks cs with
  | '-' :: rest => some ([], rest)
  | rest => hexPairs rest

/-- Digits read from the left, and what follows them; none when there is no digit. -/
def digits (value : Char → Option Nat) (base acc : Nat) (seen : Bool) :
    List Char → Option (Nat × List Char)
  | [] => if seen then some (acc, []) else none
  | c :: cs =>
    match value c with
    | some d => digits value base (base * acc + d) true cs
    | none => if seen then some (acc, c :: cs) else none

/-- A natural number, decimal or `0x` hexadecimal. -/
def natural (cs : List Char) : Option (Nat × List Char) :=
  match skipBlanks cs with
  | '0' :: 'x' :: rest => digits hexValue 16 0 false rest
  | rest => digits decValue 10 0 false rest

/-- `<u32>` (R89). -/
def u32 (cs : List Char) : Option (U32 × List Char) :=
  (natural cs).bind fun r => if r.1 < 2 ^ 32 then some (BitVec.ofNat 32 r.1, r.2) else none

/-- Whether a character of a command string is printable ASCII, taken byte for byte (R89). -/
def isPrintable (c : Char) : Bool := decide (0x20 ≤ c.toNat) && decide (c.toNat ≤ 0x7e)

/-- The characters of a command string up to its closing quote, `\xHH` standing for any byte (R89). -/
def quotedTail : List Char → Option (Bytes × List Char)
  | [] => none
  | '"' :: rest => some ([], rest)
  | '\\' :: 'x' :: a :: b :: rest =>
    (hexByte a b).bind fun x => (quotedTail rest).map fun r => (x :: r.1, r.2)
  | c :: rest =>
    if isPrintable c then
      (quotedTail rest).map fun r => (BitVec.ofNat 8 c.toNat :: r.1, r.2)
    else none

/-- `"<cmd>"` (R89). -/
def quoted (cs : List Char) : Option (Bytes × List Char) :=
  match skipBlanks cs with
  | '"' :: rest => quotedTail rest
  | _ => none

/-- The text `word`, blanks allowed before it. -/
def expect (word cs : List Char) : Option (List Char) :=
  if word.isPrefixOf (skipBlanks cs) then some ((skipBlanks cs).drop word.length) else none

/-- The end of a line: nothing more than blanks and a comment (R89). -/
def endOfLine (cs : List Char) : Bool :=
  match skipBlanks cs with
  | [] => true
  | c :: _ => c == ';'

/-- A parsed part that ends its line. -/
def atEnd {α : Type} (r : α × List Char) : Option α := if endOfLine r.2 then some r.1 else none

/-- Operands of RESET: `magic=<u32>, max=<u32>` (R89). -/
def asmReset (cs : List Char) : Option AsmLine :=
  (expect ['m', 'a', 'g', 'i', 'c', '='] cs).bind fun c1 => (u32 c1).bind fun m =>
    (expect [','] m.2).bind fun c2 => (expect ['m', 'a', 'x', '='] c2).bind fun c3 =>
      (u32 c3).bind atEnd |>.map fun x => .op (.reset m.1 x)

/-- Operands of FEED: `<hex bytes>` of any length (log 25), none feeding an empty chunk (R89). -/
def asmFeed (cs : List Char) : Option AsmLine :=
  (hexBytes cs).bind atEnd |>.map fun b => .op (.feed b)

/-- `"<cmd>", <hex bytes>` (R89). DESIGN CHOICE (log 25): R89 bounds neither, so a command of 256
bytes or more, or a payload of 2^32 or more, is read too, though R81 has no descriptor for it. -/
def cmdAndPayload (cs : List Char) : Option ((Bytes × Bytes) × List Char) :=
  (quoted cs).bind fun c => (expect [','] c.2).bind fun rest =>
    (hexBytes rest).map fun p => ((c.1, p.1), p.2)

/-- Operands of FRAME (R89), of any length (log 25). -/
def asmFrame (cs : List Char) : Option AsmLine :=
  (cmdAndPayload cs).bind atEnd |>.map fun r => .op (.frame r.1 r.2)

/-- Operands of FRAME_CK (R89), of any length (log 25). -/
def asmFrameCk (cs : List Char) : Option AsmLine :=
  (cmdAndPayload cs).bind fun r => (expect [','] r.2).bind fun rest =>
    (u32 rest).bind atEnd |>.map fun k => .op (.frameCk r.1.1 r.1.2 k)

/-- Operands of LOOPBACK (R90), of any length (log 25). -/
def asmLoopback (cs : List Char) : Option AsmLine :=
  (cmdAndPayload cs).bind atEnd |>.map fun r => .loopback r.1 r.2

/-- Operands of FEEDSPLIT: `n, <hex bytes>` with `n` at least 1 (R90, log 16). -/
def asmFeedSplit (cs : List Char) : Option AsmLine :=
  (natural cs).bind fun n => if n.1 = 0 then none else (expect [','] n.2).bind fun rest =>
    (hexBytes rest).bind atEnd |>.map fun b => .feedSplit n.1 b

/-- A character of a mnemonic. -/
def isMnemonicChar (c : Char) : Bool := (decide ('A' ≤ c) && decide (c ≤ 'Z')) || c == '_'

/-- One line of a program (R89, R90); none when it is not one. A line that only continues the hex
bytes of the line before is none here: `assemble` reads it (log 24). -/
def assembleLine (cs : List Char) : Option AsmLine :=
  let line := skipBlanks cs
  let word := line.takeWhile isMnemonicChar
  let rest := line.dropWhile isMnemonicChar
  if word = [] then (if endOfLine line then some .blank else none)
  else if word = ['R', 'E', 'S', 'E', 'T'] then asmReset rest
  else if word = ['F', 'E', 'E', 'D'] then asmFeed rest
  else if word = ['S', 'T', 'A', 'T', 'U', 'S'] then (if endOfLine rest then some (.op .status) else none)
  else if word = ['F', 'R', 'A', 'M', 'E'] then asmFrame rest
  else if word = ['F', 'R', 'A', 'M', 'E', '_', 'C', 'K'] then asmFrameCk rest
  else if word = ['L', 'O', 'O', 'P', 'B', 'A', 'C', 'K'] then asmLoopback rest
  else if word = ['F', 'E', 'E', 'D', 'S', 'P', 'L', 'I', 'T'] then asmFeedSplit rest
  else none

/-- The hex bytes of a continuation line, which begins with a blank. DESIGN CHOICE (log 24): R89 has
one operation per line, and programs P2 and P3 of spec/95_test_vectors.md continue FEED's bytes. -/
def continuation : List Char → Option Bytes
  | [] => none
  | c :: cs => if isBlank c then (hexBytes cs).bind atEnd else none

/-- A line whose last operand is hex bytes, with more of them; none for any other line (log 24). -/
def AsmLine.extend (more : Bytes) : AsmLine → Option AsmLine
  | .op (.feed chunk) => some (.op (.feed (chunk ++ more)))
  | .op (.frame cmd payload) => some (.op (.frame cmd (payload ++ more)))
  | .loopback cmd payload => some (.loopback cmd (payload ++ more))
  | .feedSplit n bytes => some (.feedSplit n (bytes ++ more))
  | .blank => none
  | .op (.reset _ _) => none
  | .op .status => none
  | .op (.frameCk _ _ _) => none
  | .op (.procHdr _) => none
  | .op (.procPay _) => none

/-- The lines of a program after the line `previous`, which a continuation line extends (log 24). -/
def assembleAfter (previous : AsmLine) : List (List Char) → Option (List AsmLine)
  | [] => some [previous]
  | cs :: rest =>
    match assembleLine cs with
    | some line => (assembleAfter line rest).map (previous :: ·)
    | none =>
      ((continuation cs).bind fun more => previous.extend more).bind fun line =>
        assembleAfter line rest

/-- A program is a straight list of operations (R89), each on a line and its continuations. -/
def assemble : List (List Char) → Option (List AsmLine)
  | [] => some []
  | cs :: rest => (assembleLine cs).bind fun line => assembleAfter line rest

/-- The host operations of a line that do not wait for a result (R90, R91): the FEED of a LOOPBACK
carries the frame its FRAME returned, so it is known only when the program runs. -/
def AsmLine.operations : AsmLine → List Instr
  | .blank => []
  | .op i => [i]
  | .loopback cmd payload => [.frame cmd payload]
  | .feedSplit n b => Sys2Proof.Machine.feedSplit n b

/-- Host operations run one after the other. -/
def execAll : List Instr → State → Host.Outcome State Fault Refusal
  | [], s => .next s
  | i :: is, s =>
    match exec i s with
    | .next t => execAll is t
    | .fault r => .fault r
    | .refused r => .refused r

/-- One line run on an instance, pseudo-operations expanded (R90). -/
def AsmLine.run (l : AsmLine) (s : State) : Host.Outcome State Fault Refusal :=
  match l with
  | .blank => .next s
  | .op i => exec i s
  | .loopback cmd payload => Sys2Proof.Machine.loopback cmd payload s
  | .feedSplit n b => execAll (Sys2Proof.Machine.feedSplit n b) s

end Sys2Proof.Machine
end

