-- ==== Sys2Proof/Safety.lean ====
section
/-! DEFINITION. What claims are stated in: the invariant of the machine (spec/10_state.md R25 to R33),
states between operations, launch premises (spec/70_reset_and_hazards.md R194) and safe runs. -/

namespace Sys2Proof.Machine

/-- An event is legal when its kind is one of a Parser and it carries a cause exactly when its kind is
PayloadDecodeError (R86, R163). -/
def Event.legal : Event → Bool
  | .packet _ => true
  | .error kind cause => decide (1 ≤ kind.code) && decide (kind.code ≤ 5)
      && (cause.isSome == decide (kind = .payloadDecodeError))

/-- A result is legal when its events are, a frame has a whole header (R88), and a Framer error has
kind 6 or 7 (R85, R87). -/
def Result.legal : Result → Bool
  | .done => true
  | .events l => l.all Event.legal
  | .status _ => true
  | .frame bytes => decide (headerSize ≤ bytes.length)
  | .frameError kind => decide (kind.code = 6) || decide (kind.code = 7)

/-- A Header as PROC_HDR builds it: 0 to 11 command bytes, none 0x00 (R29), and a size within the
bound of the configuration (R26). -/
def Header.legal (cfg : Option Profile) (h : Header) : Bool :=
  decide (h.cmd.length ≤ 11) && h.cmd.all (fun b => b != 0#8)
    && match cfg with
       | some c => !exceedsMax c h.size.toNat
       | none => false

/-- The Parser state's invariant at every micro-step boundary (R33): `total = |buf|` (R25), and
`awaiting` is 24 for a header or the validated size for a payload (R26, R27). -/
def ParserState.legal (cfg : Option Profile) (p : ParserState) : Bool :=
  decide (p.total = p.buf.length)
    && match p.hdr with
       | none => p.awaiting == 24#32
       | some h => p.awaiting == h.size && h.legal cfg

/-- The invariant of the machine. Between operations no complete unit is left in the FIFO (R32, R105);
inside a FEED the instance is configured and the events so far are legal. -/
structure State.Inv (s : State) : Prop where
  parser : s.parser.legal s.cfg = true
  between : s.inFeed = none → s.parser.unitComplete = false
  inside : ∀ events, s.inFeed = some events → s.cfg ≠ none ∧ events.all Event.legal = true
  result : ∀ v, s.result = some v → v.legal = true

/-- Between two operations of a configured instance. -/
structure State.Ready (s : State) (cfg : Profile) : Prop where
  configured : s.cfg = some cfg
  idle : s.inFeed = none

/-- Inside a FEED of a configured instance, with the events emitted so far (R33). -/
structure State.Feeding (s : State) (cfg : Profile) (events : List Event) : Prop where
  configured : s.cfg = some cfg
  running : s.inFeed = some events

/-- AwaitingHeader with an empty FIFO (R35, R147, R194). -/
structure ParserState.Fresh (p : ParserState) : Prop where
  noHeader : p.hdr = none
  awaits : p.awaiting = 24#32
  empty : p.buf = []
  count : p.total = 0

/-- The launch premises of a claim about whole frames (R194): RESET with a named profile, the Refused
mark clear, and AwaitingHeader with an empty FIFO. -/
structure State.Launched (s : State) (cfg : Profile) : Prop extends s.Ready cfg where
  clear : s.refusedMark = false
  fresh : s.parser.Fresh

/-- A Parser state without the hidden partition (R31): what operations depend on (R24). -/
def ParserState.visible (p : ParserState) : Bytes × Nat × U32 × Option Header :=
  (p.buf, p.total, p.awaiting, p.hdr)

/-- Two states that differ at most in the hidden partition of the FIFO (R31). -/
structure State.SameButChunks (s t : State) : Prop where
  cfg : s.cfg = t.cfg
  parser : s.parser.visible = t.parser.visible
  inFeed : s.inFeed = t.inFeed
  refusedMark : s.refusedMark = t.refusedMark
  result : s.result = t.result
  pending : s.pending = t.pending

/-- The operations of a run stop at no fault and no refusal, and the Refused mark is clear at its end
(R166, R194): a safe run of `n` steps. -/
def SafeRun (n : Nat) (s : State) : Prop :=
  ∃ t, Host.Core.run Sys2Proof.core n s = .next t ∧ t.refusedMark = false

/-- The event that a payload's codec result gives (R124, R126). -/
def codecEvent (X : External) (cmd payload : Bytes) : Event :=
  match X.decode cmd payload with
  | .ok p => .packet p
  | .err c => .error .payloadDecodeError (some c)

/-- The event of a payload that is declared with the checksum `ck` (R124). -/
def payloadEvent (X : External) (cmd payload : Bytes) (ck : U32) : Event :=
  if checksumDiffers (X.hash256 payload) ck then .error .checksumMismatch none
  else codecEvent X cmd payload

/-- The error kind of a rejected header block (R79, R161). -/
def HeaderClass.error : HeaderClass → Option ErrorKind
  | .invalidMagic => some .invalidMagic
  | .malformedCommand => some .malformedCommand
  | .oversizedMessage => some .oversizedMessage
  | .valid _ => none

end Sys2Proof.Machine
end

