-- ==== Sys2Proof/Certificates/Slice0/Obligations.lean ====
section
/-! DEFINITION. The statements for the provers, from the numbered rules of spec/. The external
functions are the opaque ones of Config, so each statement holds for every `hash256` and `decode`. -/

open Sys2Proof Sys2Proof.Machine

/-! ## RESET and STATUS -/

/-- R150: RESET latches the profile, empties the Parser and returns `Done`; nothing else changes. After
it `buf` is empty and the phase is AwaitingHeader. -/
def Obligations.ResetWritesEveryField : Prop :=
  ∀ (magic max : U32) (s : State), s.inFeed = none →
    ∃ t, exec (.reset magic max) s = .next t ∧
      t = { s with
        cfg := some { magic := magic, maxMessageSize := max }
        parser := { chunks := [], total := 0, awaiting := 24#32, hdr := none }
        result := some .done } ∧
      t.parser.buf = [] ∧ t.parser.phase = .awaitingHeader

/-- R57: a second RESET with the same operands changes nothing. -/
def Obligations.ResetIsIdempotent : Prop :=
  ∀ (magic max : U32) (s t : State), exec (.reset magic max) s = .next t →
    exec (.reset magic max) t = .next t

/-- R152: the record STATUS returns; no state is written. -/
def Obligations.StatusReturnsTheRecord : Prop :=
  ∀ (s : State) (cfg : Profile), s.Ready cfg →
    exec .status s = .next { s with
      result := some (.status
        { phase := (match s.parser.hdr with | none => .awaitingHeader | some _ => .awaitingPayload)
          awaiting := s.parser.awaiting
          total := s.parser.total
          hdr := s.parser.hdr
          magic := cfg.magic
          max := cfg.maxMessageSize }) }

/-- R153: two STATUS in a row return the same record, and a STATUS before another operation changes
neither its effect nor its result. -/
def Obligations.StatusHasNoSideEffect : Prop :=
  ∀ (s : State) (cfg : Profile), s.Ready cfg →
    ∃ t, exec .status s = .next t ∧ exec .status t = .next t ∧
      ∀ i : Instr, exec i t = exec i s

/-! ## Refusals -/

/-- R166 item 1, R34: before the first RESET every other operation is refused: the mark is set, no
result is returned, nothing else changes. -/
def Obligations.UnconfiguredOperationsRefused : Prop :=
  ∀ (i : Instr) (s : State), s.cfg = none → (∀ magic max, i ≠ .reset magic max) →
    exec i s = .next { s with refusedMark := true, result := none }

/-- R166 item 3, R174: while a FEED runs, another FEED, a RESET or a STATUS is refused, and a FRAME or
FRAME_CK runs as it does between operations. -/
def Obligations.OverlapWithRunningFeed : Prop :=
  ∀ (s : State) (cfg : Profile) (events : List Event), s.Feeding cfg events →
    (∀ i : Instr, i.isHostOp = true → i.isFramerOp = false →
      exec i s = .next { s with refusedMark := true, result := none }) ∧
    (∀ i : Instr, i.isFramerOp = true → ∃ v,
      exec i s = .next { s with result := some v } ∧
      exec i { s with inFeed := none } = .next { s with inFeed := none, result := some v })

/-- R84, R177: a micro-step that no FEED has selected is refused: outside a FEED, in the other phase,
or for a block of another length. -/
def Obligations.UnselectedMicroStepsRefused : Prop :=
  ∀ (block : Bytes) (s : State),
    ((s.inFeed = none ∨ s.parser.hdr ≠ none ∨ block.length ≠ 24) →
      exec (.procHdr block) s = .next { s with refusedMark := true, result := none }) ∧
    ((s.inFeed = none ∨ ∀ h, s.parser.hdr = some h → block.length ≠ h.size.toNat) →
      exec (.procPay block) s = .next { s with refusedMark := true, result := none })

/-- R166 items 3 and 4, R184, R187: how a call is issued decides whether its operation runs. -/
def Obligations.IssuedCallsRefusedOrRun : Prop :=
  ∀ (s : State) (call : HostCall) (calls : List HostCall) (i : Instr),
    s.inFeed = none → s.pending = call :: calls → decodeDescriptor call.descriptor = some i →
    (call.issue = .reentrant →
      step s = .next { s with pending := calls, refusedMark := true, result := none }) ∧
    (call.issue = .overlapping → i.isFramerOp = false →
      step s = .next { s with pending := calls, refusedMark := true, result := none }) ∧
    (call.issue = .overlapping → i.isFramerOp = true →
      step s = exec i { s with pending := calls })

/-- R82: a call whose descriptor is malformed is refused, and opcodes 0x03 to 0x0F and 0x12 to 0xFF are
reserved, whatever bytes follow. -/
def Obligations.ReservedAndMalformedCallsRefused : Prop :=
  ∀ (s : State) (call : HostCall) (calls : List HostCall),
    s.inFeed = none → s.pending = call :: calls →
    (decodeDescriptor call.descriptor = none →
      step s = .next { s with pending := calls, refusedMark := true, result := none }) ∧
    ∀ (op : Byte) (operands : Bytes), call.descriptor = op :: operands →
      (0x03 ≤ op.toNat ∧ op.toNat ≤ 0x0f) ∨ 0x12 ≤ op.toNat →
      step s = .next { s with pending := calls, refusedMark := true, result := none }

/-- R166: the Refused mark stays set for the rest of the run. -/
def Obligations.RefusedMarkIsSticky : Prop :=
  ∀ s t : State, step s = .next t → s.refusedMark = true → t.refusedMark = true

/-- R166: nothing but its four cases sets the Refused mark. -/
def Obligations.OnlyRefusalsSetTheMark : Prop :=
  ∀ s t : State, s.Inv → step s = .next t → s.refusedMark = false → t.refusedMark = true →
    ∃ call calls, s.inFeed = none ∧ s.pending = call :: calls ∧
      (decodeDescriptor call.descriptor = none ∨
        ∃ i, decodeDescriptor call.descriptor = some i ∧
          ((s.cfg = none ∧ ∀ magic max, i ≠ .reset magic max) ∨
            (call.issue = .overlapping ∧ i.isFramerOp = false) ∨
            call.issue = .reentrant))

/-! ## Steps -/

/-- A step takes the host's next call and runs the operation its descriptor decodes to (R7, R81). With
no call and no FEED to run, the FPB holds its state unchanged (R176). -/
def Obligations.StepRunsTheDecodedCall : Prop :=
  ∀ s : State, s.inFeed = none →
    (∀ (descriptor : Bytes) (calls : List HostCall) (i : Instr),
      s.pending = { issue := .sequential, descriptor := descriptor } :: calls →
      decodeDescriptor descriptor = some i →
      step s = exec i { s with pending := calls }) ∧
    (s.pending = [] → step s = .next s)

/-- R84, R101, R102, R120: inside a FEED with a complete unit, a step extracts the front `awaiting`
bytes and runs the micro-step that the phase selects on them; with none, the FEED returns its list.
That a step there is one iteration, or the end of the FEED, is the model's reading (DEDUCED, log 5). -/
def Obligations.StepInsideFeed : Prop :=
  ∀ (s : State) (events : List Event), s.inFeed = some events →
    (s.parser.awaiting.toNat ≤ s.parser.total → ∃ rest : List Bytes,
      rest.flatten = s.parser.buf.drop s.parser.awaiting.toNat ∧
      step s = exec
        (match s.parser.hdr with
          | none => .procHdr (s.parser.buf.take s.parser.awaiting.toNat)
          | some _ => .procPay (s.parser.buf.take s.parser.awaiting.toNat))
        { s with parser := { s.parser with
            chunks := rest, total := s.parser.total - s.parser.awaiting.toNat } }) ∧
    (s.parser.total < s.parser.awaiting.toNat →
      step s = .next { s with inFeed := none, result := some (.events events) })

/-- R160, R193: no operation stops the machine; every step has a next state. -/
def Obligations.EveryStepReturns : Prop :=
  (∀ (i : Instr) (s : State), ∃ t, exec i s = .next t) ∧ ∀ s : State, ∃ t, step s = .next t

/-! ## Encodings -/

/-- R81, R84: decoding what the encoder writes gives the operation back, operands and all. -/
def Obligations.DecodeOfEncode : Prop :=
  ∀ i : Instr, i.wellFormed = true → decode (encode i) = some i

/-- R92: no operation has a second encoding. -/
def Obligations.EncodingIsUnique : Prop :=
  ∀ (e : Encoding) (i : Instr), decode e = some i → encode i = e ∧ i.wellFormed = true

/-- R81, R82: a descriptor cut short or followed by more bytes is malformed. -/
def Obligations.WrongByteCountDoesNotDecode : Prop :=
  ∀ i : Instr, i.wellFormed = true → i.isHostOp = true →
    (∀ n, n < tableLength i → decodeDescriptor ((descriptorBytes i).take n) = none) ∧
    (∀ more : Bytes, more ≠ [] → decodeDescriptor (descriptorBytes i ++ more) = none)

/-- R91: a program, the concatenation of its descriptors, decodes to its operations in order. -/
def Obligations.ProgramDecodeOfEncode : Prop :=
  ∀ is : List Instr, (∀ i ∈ is, i.wellFormed = true ∧ i.isHostOp = true) →
    decodeProgram (encodeProgram is) = some is

/-- R80: bit 4 of the opcode selects the framer group, and within it bit 0 says that a checksum
operand is present. -/
def Obligations.OpcodeBitsSelectTheGroup : Prop :=
  ∀ (op : Byte) (operands : Bytes) (i : Instr), decodeDescriptor (op :: operands) = some i →
    op.getLsbD 4 = i.isFramerOp ∧
    (i.isFramerOp = true → (op.getLsbD 0 = true ↔ ∃ cmd payload ck, i = .frameCk cmd payload ck))

/-- The descriptor bytes that spec/95_test_vectors.md section 3 writes out, read by the decoder. -/
def Obligations.TableDescriptorsDecode : Prop :=
  decodeDescriptor [0x00#8, 0xf9#8, 0xbe#8, 0xb4#8, 0xd9#8, 0x00#8, 0x09#8, 0x3d#8, 0x00#8]
      = some (.reset 0xD9B4BEF9#32 4000000#32) ∧
  decodeDescriptor [0x02#8] = some .status ∧
  decodeDescriptor [0x01#8, 0x00#8, 0x00#8, 0x00#8, 0x00#8] = some (.feed []) ∧
  decodeDescriptor [0x10#8, 0x03#8, 0x61#8, 0x62#8, 0x63#8, 0x01#8, 0x00#8, 0x00#8, 0x00#8, 0x01#8]
      = some (.frame [0x61#8, 0x62#8, 0x63#8] [0x01#8]) ∧
  decodeDescriptor [0x11#8, 0x04#8, 0x70#8, 0x69#8, 0x6e#8, 0x67#8, 0x04#8, 0x00#8, 0x00#8, 0x00#8,
      0x01#8, 0x02#8, 0x03#8, 0x04#8, 0x00#8, 0x00#8, 0x00#8, 0x00#8]
      = some (.frameCk [0x70#8, 0x69#8, 0x6e#8, 0x67#8] [0x01#8, 0x02#8, 0x03#8, 0x04#8] 0#32)

/-! ## Byte order and header blocks -/

/-- R12, R53: `le32` and `wle32` undo each other, so a u32 field on the wire holds exactly its four
bytes. -/
def Obligations.LittleEndianRoundTrip : Prop :=
  (∀ (v : U32) (rest : Bytes), le32 (wle32 v ++ rest) 0 = v) ∧
  ∀ b : Bytes, 4 ≤ b.length → wle32 (le32 b 0) = b.take 4

/-- R72: a block whose first four bytes differ in any bit from the configured magic's wire bytes is
rejected with InvalidMagic, and no other block is. -/
def Obligations.MagicComparedByteForByte : Prop :=
  ∀ (cfg : Profile) (b : Bytes), b.length = 24 →
    (classifyHeader cfg b = .invalidMagic ↔ b.take 4 ≠ wle32 cfg.magic)

/-- R29, R73: the Header of a valid block holds 0 to 11 command bytes, none 0x00, the bytes before the
first 0x00 of the command field, and the size and checksum of their fields. -/
def Obligations.ValidHeaderFields : Prop :=
  ∀ (cfg : Profile) (b : Bytes) (h : Header), b.length = 24 → classifyHeader cfg b = .valid h →
    h.cmd.length ≤ 11 ∧ 0#8 ∉ h.cmd ∧
    (∃ padding, (b.drop 4).take 12 = h.cmd ++ 0#8 :: padding) ∧
    wle32 h.size = (b.drop 16).take 4 ∧ wle32 h.checksum = b.drop 20 ∧
    h.size.toNat ≤ cfg.maxMessageSize.toNat

/-- R83, R129: the bytes after the terminator of the command field are don't-care. -/
def Obligations.PaddingIsNotChecked : Prop :=
  ∀ (cfg : Profile) (b b' : Bytes) (k : Nat), b.length = 24 → b'.length = 24 →
    k < 12 → b.getD (4 + k) 1#8 = 0#8 →
    (∀ i, i ≤ 4 + k ∨ 16 ≤ i → b.getD i 0#8 = b'.getD i 0#8) →
    classifyHeader cfg b' = classifyHeader cfg b

/-- R130: twelve non-zero command bytes are malformed; 0 to 11 bytes before a first 0x00 at any place
of the field, its first and its last included, are taken as they are. -/
def Obligations.CommandBoundaries : Prop :=
  ∀ (cfg : Profile) (cmd : Bytes) (size ck : U32), 0#8 ∉ cmd →
    (cmd.length = 12 →
      classifyHeader cfg (wle32 cfg.magic ++ cmd ++ wle32 size ++ wle32 ck)
        = .malformedCommand) ∧
    ∀ padding : Bytes, cmd.length + 1 + padding.length = 12 →
      size.toNat ≤ cfg.maxMessageSize.toNat →
      classifyHeader cfg (wle32 cfg.magic ++ (cmd ++ 0#8 :: padding) ++ wle32 size ++ wle32 ck)
        = .valid { cmd := cmd, size := size, checksum := ck }

/-- R122: a declared size is rejected exactly when it is above the maximum, as unsigned values. -/
def Obligations.SizeBoundIsExact : Prop :=
  ∀ (cfg : Profile) (b : Bytes), b.length = 24 → b.take 4 = wle32 cfg.magic →
    0#8 ∈ (b.drop 4).take 12 →
    (classifyHeader cfg b = .oversizedMessage ↔
      (le32 b 16).toNat > cfg.maxMessageSize.toNat) ∧
    ((le32 b 16).toNat ≤ cfg.maxMessageSize.toNat → ∃ h, classifyHeader cfg b = .valid h)

/-! ## PROC_HDR and PROC_PAY -/

/-- R121: PROC_HDR on a 24-byte block, in the order magic, terminator, size. -/
def Obligations.ProcHdrResult : Prop :=
  ∀ (s : State) (cfg : Profile) (events : List Event) (b : Bytes),
    s.Feeding cfg events → s.parser.hdr = none → b.length = 24 →
    exec (.procHdr b) s = .next
      (if le32 b 0 ≠ cfg.magic then
        { s with
          parser := { s.parser with hdr := none, awaiting := 24#32 }
          inFeed := some (events ++ [.error .invalidMagic none]) }
      else match firstNul b 4 12 with
        | none =>
          { s with
            parser := { s.parser with hdr := none, awaiting := 24#32 }
            inFeed := some (events ++ [.error .malformedCommand none]) }
        | some k =>
          if (le32 b 16).toNat > cfg.maxMessageSize.toNat then
            { s with
              parser := { s.parser with hdr := none, awaiting := 24#32 }
              inFeed := some (events ++ [.error .oversizedMessage none]) }
          else
            { s with parser := { s.parser with
                hdr := some { cmd := (b.drop 4).take k, size := le32 b 16, checksum := le32 b 20 }
                awaiting := le32 b 16 } })

/-- R124: PROC_PAY on a block of the declared size: one event, and AwaitingHeader on every path. -/
def Obligations.ProcPayResult : Prop :=
  ∀ (s : State) (cfg : Profile) (events : List Event) (h : Header) (b : Bytes),
    s.Feeding cfg events → s.parser.hdr = some h → b.length = h.size.toNat →
    exec (.procPay b) s = .next { s with
      parser := { s.parser with hdr := none, awaiting := 24#32 }
      inFeed := some (events ++ [
        if le32 (Config.hash256 b).toList 0 ≠ h.checksum then .error .checksumMismatch none
        else match Config.decode h.cmd b with
          | .err c => .error .payloadDecodeError (some c)
          | .ok p => .packet p]) }

/-- R127: nothing but RESET and the PROC_PAY of its own payload discards a Header. A FEED that does
not complete the payload keeps it. -/
def Obligations.HeaderLivesUntilItsPayload : Prop :=
  ∀ (i : Instr) (s t : State) (h : Header), s.parser.hdr = some h → exec i s = .next t →
    t.parser.hdr = some h ∨ (∃ magic max, i = .reset magic max) ∨
    (∃ b, i = .procPay b ∧ b.length = h.size.toNat) ∨
    ∃ chunk, i = .feed chunk ∧ s.parser.awaiting.toNat ≤ s.parser.total + chunk.length

/-! ## FEED -/

/-- R105: FEED completes; every complete unit has been processed, and the bytes kept are the last ones
fed, in order. The configuration, the mark and the queue are unchanged. -/
def Obligations.FeedIsSideEffectComplete : Prop :=
  ∀ (s : State) (cfg : Profile) (chunk : Bytes), s.Ready cfg → s.Inv →
    ∃ (p : ParserState) (events : List Event),
      exec (.feed chunk) s = .next { s with parser := p, result := some (.events events) } ∧
      p.total < p.awaiting.toNat ∧ p.total = p.buf.length ∧
      p.buf = (s.parser.buf ++ chunk).drop ((s.parser.buf ++ chunk).length - p.total)

/-- R101, R103: FEED appends, then runs iterations of EXTRACT and PROCESS as long as a unit is
complete, at most 1 + 2·⌊T/24⌋ of them, and returns at most that many events. -/
def Obligations.FeedRunsTheDrainLoop : Prop :=
  ∀ (s : State) (cfg : Profile) (chunk : Bytes), s.Ready cfg → s.Inv →
    ∃ n : Nat,
      let state (k : Nat) : Run := (drainOnce Config.external cfg)^[k]
        { parser := { s.parser with
            chunks := s.parser.chunks ++ [chunk], total := s.parser.total + chunk.length }
          events := [] }
      n ≤ 1 + 2 * ((s.parser.total + chunk.length) / 24) ∧
      (∀ k < n, (state k).parser.awaiting.toNat ≤ (state k).parser.total) ∧
      (state n).parser.total < (state n).parser.awaiting.toNat ∧
      (state n).events.length ≤ n ∧
      exec (.feed chunk) s = .next { s with
        parser := (state n).parser, result := some (.events (state n).events) }

/-- R7, R33, R84: the atomic FEED is the micro-steps of `step` from the state after the append, run
until the FEED returns. -/
def Obligations.FeedIsItsMicroSteps : Prop :=
  ∀ (s : State) (cfg : Profile) (chunk : Bytes), s.Ready cfg → s.Inv →
    ∃ (n : Nat) (t : State), exec (.feed chunk) s = .next t ∧
      Host.Core.run Sys2Proof.core n { s with
        parser := { s.parser with
          chunks := s.parser.chunks ++ [chunk], total := s.parser.total + chunk.length }
        inFeed := some [] } = .next t

/-- R106: a FEED that completes no unit adds its bytes and returns no event; FEED of 0 bytes between
operations is such a FEED. -/
def Obligations.PartialFeed : Prop :=
  ∀ (s : State) (cfg : Profile) (chunk : Bytes), s.Ready cfg →
    (s.parser.total + chunk.length < s.parser.awaiting.toNat →
      ∃ t, exec (.feed chunk) s = .next t ∧ t = { s with
        parser := { s.parser with
          chunks := s.parser.chunks ++ [chunk], total := s.parser.total + chunk.length }
        result := some (.events []) } ∧
      t.parser.buf = s.parser.buf ++ chunk) ∧
    (s.Inv → ∃ t, exec (.feed []) s = .next t ∧ t.result = some (.events []) ∧
      t.parser.visible = s.parser.visible)

/-- R104: any split of the bytes into chunks gives the same events and the same visible state. -/
def Obligations.FragmentationInvariance : Prop :=
  ∀ (s : State) (cfg : Profile) (chunks : List Bytes), s.Ready cfg → s.Inv →
    ∃ (p : ParserState) (events : List Event),
      exec (.feed chunks.flatten) s
        = .next { s with parser := p, result := some (.events events) } ∧
      (feedAll chunks s).2 = events ∧
      (feedAll chunks s).1.parser.visible = p.visible ∧
      (feedAll chunks s).1.cfg = s.cfg ∧ (feedAll chunks s).1.inFeed = none ∧
      (feedAll chunks s).1.refusedMark = s.refusedMark ∧
      (feedAll chunks s).1.pending = s.pending

/-- R110: absorbing the chunk one byte at a time gives the same events and the same visible state, and
its FIFO holds at most max(24, MAX_MESSAGE_SIZE) bytes when a byte has just been added. -/
def Obligations.ByteSerialAbsorption : Prop :=
  ∀ (s : State) (cfg : Profile) (chunk : Bytes), s.Ready cfg → s.Inv →
    ∃ (p : ParserState) (events : List Event),
      exec (.feed chunk) s = .next { s with parser := p, result := some (.events events) } ∧
      (feedSerial Config.external cfg chunk s.parser).events = events ∧
      (feedSerial Config.external cfg chunk s.parser).parser.visible = p.visible ∧
      ∀ k, (feedSerial Config.external cfg (chunk.take k) s.parser).parser.total + 1
        ≤ max 24 cfg.maxMessageSize.toNat

/-- R24, R31: no operation depends on how the FIFO is cut into chunks. -/
def Obligations.ChunkPartitionIsHidden : Prop :=
  ∀ (i : Instr) (s t s' t' : State), s.SameButChunks t →
    exec i s = .next s' → exec i t = .next t' → s'.SameButChunks t'

/-- R123, R131, R165: a rejected header block costs its 24 bytes and one event; what follows is read
as header candidates, judged as if the block had never been there. -/
def Obligations.HeaderErrorResynchronises : Prop :=
  ∀ (s : State) (cfg : Profile) (b rest : Bytes) (k : ErrorKind),
    s.Ready cfg → s.parser.Fresh → b.length = 24 → (classifyHeader cfg b).error = some k →
    ∃ (p q : ParserState) (events : List Event),
      exec (.feed rest) s = .next { s with parser := q, result := some (.events events) } ∧
      exec (.feed (b ++ rest)) s
        = .next { s with parser := p, result := some (.events (.error k none :: events)) } ∧
      p.visible = q.visible

/-- R107, R108, R134: a valid header block and the payload it declares, of any size 0 and 24 included,
give exactly one event; what follows is judged as if they had never been there. -/
def Obligations.ValidFrameGivesOneEvent : Prop :=
  ∀ (s : State) (cfg : Profile) (b payload rest : Bytes) (h : Header),
    s.Ready cfg → s.parser.Fresh → b.length = 24 → classifyHeader cfg b = .valid h →
    payload.length = h.size.toNat →
    ∃ (p q : ParserState) (events : List Event),
      exec (.feed rest) s = .next { s with parser := q, result := some (.events events) } ∧
      exec (.feed (b ++ payload ++ rest)) s
        = .next { s with
            parser := p
            result := some (.events
              (payloadEvent Config.external h.cmd payload h.checksum :: events)) } ∧
      p.visible = q.visible

/-- R134: a header of size 24 is followed by a payload of 24 bytes, although `awaiting` stays 24. -/
def Obligations.PayloadOfTwentyFourBytes : Prop :=
  ∀ (s : State) (cfg : Profile) (b : Bytes) (h : Header),
    s.Ready cfg → s.parser.Fresh → b.length = 24 → classifyHeader cfg b = .valid h →
    h.size = 24#32 →
    ∃ t, exec (.feed b) s = .next t ∧ t.result = some (.events []) ∧
      t.parser.awaiting = 24#32 ∧ t.parser.hdr = some h ∧ t.parser.total = 0 ∧
      ∀ payload : Bytes, payload.length = 24 → ∃ u, exec (.feed payload) t = .next u ∧
        u.result = some (.events [payloadEvent Config.external h.cmd payload h.checksum]) ∧
        u.parser.Fresh

/-- R111: two frames that the Framer builds with their computed checksums, fed in one chunk, give
their two payload events in order. -/
def Obligations.TwoFramesInOneChunk : Prop :=
  ∀ (s : State) (cfg : Profile) (cmd₁ cmd₂ payload₁ payload₂ : Bytes),
    s.Ready cfg → s.parser.Fresh →
    cmd₁.length ≤ 11 → 0#8 ∉ cmd₁ → payload₁.length ≤ cfg.maxMessageSize.toNat →
    cmd₂.length ≤ 11 → 0#8 ∉ cmd₂ → payload₂.length ≤ cfg.maxMessageSize.toNat →
    ∃ t, exec (.feed
        (buildFrame cfg cmd₁ payload₁ (payloadChecksum Config.external payload₁)
          ++ buildFrame cfg cmd₂ payload₂ (payloadChecksum Config.external payload₂))) s = .next t ∧
      t.result = some (.events [codecEvent Config.external cmd₁ payload₁,
        codecEvent Config.external cmd₂ payload₂]) ∧
      t.parser.Fresh

/-- R133: a payload altered to other first four digest bytes gives ChecksumMismatch, and the next
frame is decoded. For every `hash256` and `decode`: `exec` of FEED is `feedWith` on those of Config. -/
def Obligations.AlteredPayloadThenRecovery : Prop :=
  ∀ (X : External) (s : State) (cfg : Profile) (cmd₁ cmd₂ sent altered payload₂ : Bytes),
    s.Ready cfg → s.parser.Fresh →
    cmd₁.length ≤ 11 → 0#8 ∉ cmd₁ → sent.length ≤ cfg.maxMessageSize.toNat →
    cmd₂.length ≤ 11 → 0#8 ∉ cmd₂ → payload₂.length ≤ cfg.maxMessageSize.toNat →
    altered.length = sent.length →
    le32 (X.hash256 altered).toList 0 ≠ le32 (X.hash256 sent).toList 0 →
    ∃ t, feedWith X
        ((buildFrame cfg cmd₁ sent (payloadChecksum X sent)).take 24 ++ altered
          ++ buildFrame cfg cmd₂ payload₂ (payloadChecksum X payload₂)) s = .next t ∧
      t.result = some (.events [.error .checksumMismatch none, codecEvent X cmd₂ payload₂]) ∧
      t.parser.Fresh

/-! ## Framer -/

/-- R140, R142, R144, R145: FRAME's two checks, then the frame with the computed checksum; nothing but
the result changes. -/
def Obligations.FrameResult : Prop :=
  ∀ (s : State) (cfg : Profile) (cmd payload : Bytes), s.cfg = some cfg →
    exec (.frame cmd payload) s = .next { s with result := some (
      if 12 < cmd.length then .frameError .commandTooLong
      else if cfg.maxMessageSize.toNat < payload.length then .frameError .oversizedPayload
      else .frame (wle32 cfg.magic ++ cmd ++ zeros (12 - cmd.length)
        ++ wle32 (BitVec.ofNat 32 payload.length)
        ++ wle32 (le32 (Config.hash256 payload).toList 0) ++ payload)) }

/-- R141, R142, R144, R148: FRAME_CK writes the supplied checksum as given. -/
def Obligations.FrameCkResult : Prop :=
  ∀ (s : State) (cfg : Profile) (cmd payload : Bytes) (ck : U32), s.cfg = some cfg →
    exec (.frameCk cmd payload ck) s = .next { s with result := some (
      if 12 < cmd.length then .frameError .commandTooLong
      else if cfg.maxMessageSize.toNat < payload.length then .frameError .oversizedPayload
      else .frame (wle32 cfg.magic ++ cmd ++ zeros (12 - cmd.length)
        ++ wle32 (BitVec.ofNat 32 payload.length) ++ wle32 ck ++ payload)) }

/-- R143, R75: the frame of FRAME holds the first four digest bytes at offsets 20 to 23, and FRAME_CK
with that checksum returns the same. -/
def Obligations.ChecksumBytesAreDigestBytes : Prop :=
  ∀ (s : State) (cmd payload : Bytes),
    (exec (.frameCk cmd payload (le32 (Config.hash256 payload).toList 0)) s
      = exec (.frame cmd payload) s) ∧
    ∀ (t : State) (f : Bytes), exec (.frame cmd payload) s = .next t → t.result = some (.frame f) →
      (f.drop 20).take 4 = (Config.hash256 payload).toList.take 4

/-- R147: the round trip of a command of 0 to 11 non-zero bytes and a payload within the maximum. -/
def Obligations.LoopbackRoundTrip : Prop :=
  ∀ (s : State) (cfg : Profile) (cmd payload : Bytes),
    s.Ready cfg → s.parser.Fresh →
    cmd.length ≤ 11 → 0#8 ∉ cmd → payload.length ≤ cfg.maxMessageSize.toNat →
    ∃ t, loopback cmd payload s = .next t ∧
      t.result = some (.events [codecEvent Config.external cmd payload]) ∧
      t.parser.Fresh ∧ t.cfg = some cfg ∧ t.refusedMark = s.refusedMark

/-- R147, R190: a 12-byte command with no 0x00 frames without error, and the Parser reports
MalformedCommand and reads the payload as header candidates. -/
def Obligations.TwelveByteCommandDoesNotParse : Prop :=
  ∀ (s : State) (cfg : Profile) (cmd payload : Bytes),
    s.Ready cfg → s.parser.Fresh → cmd.length = 12 → 0#8 ∉ cmd →
    payload.length ≤ cfg.maxMessageSize.toNat →
    ∃ (t u : State) (events : List Event), loopback cmd payload s = .next t ∧
      exec (.feed payload) s = .next u ∧ u.result = some (.events events) ∧
      t.result = some (.events (.error .malformedCommand none :: events)) ∧
      t.parser.visible = u.parser.visible

/-- R147: a command with a 0x00 inside is accepted cut at its first 0x00. -/
def Obligations.CommandCutAtFirstNul : Prop :=
  ∀ (s : State) (cfg : Profile) (front back payload : Bytes),
    s.Ready cfg → s.parser.Fresh → 0#8 ∉ front → front.length + 1 + back.length ≤ 12 →
    payload.length ≤ cfg.maxMessageSize.toNat →
    ∃ t, loopback (front ++ 0#8 :: back) payload s = .next t ∧
      t.result = some (.events [codecEvent Config.external front payload]) ∧ t.parser.Fresh

/-- R147: a frame built for another profile is rejected with InvalidMagic, or with OversizedMessage
when only the size bound is too small, and the rest is read as header candidates. -/
def Obligations.FrameOfAnotherProfile : Prop :=
  ∀ (s : State) (cfg sender : Profile) (cmd payload : Bytes) (ck : U32),
    s.Ready cfg → s.parser.Fresh → cmd.length ≤ 11 → payload.length < 2 ^ 32 →
    (sender.magic ≠ cfg.magic ∨ cfg.maxMessageSize.toNat < payload.length) →
    ∃ (t u : State) (events : List Event),
      exec (.feed (buildFrame sender cmd payload ck)) s = .next t ∧
      exec (.feed payload) s = .next u ∧ u.result = some (.events events) ∧
      t.result = some (.events (.error
        (if sender.magic ≠ cfg.magic then .invalidMagic else .oversizedMessage) none :: events)) ∧
      t.parser.visible = u.parser.visible

/-- R148: a frame with a supplied checksum that does not match is reported as ChecksumMismatch. -/
def Obligations.WrongSuppliedChecksum : Prop :=
  ∀ (s : State) (cfg : Profile) (cmd payload : Bytes) (ck : U32),
    s.Ready cfg → s.parser.Fresh → cmd.length ≤ 11 → 0#8 ∉ cmd →
    payload.length ≤ cfg.maxMessageSize.toNat → ck ≠ le32 (Config.hash256 payload).toList 0 →
    ∃ (t u : State) (f : Bytes), exec (.frameCk cmd payload ck) s = .next t ∧
      t.result = some (.frame f) ∧ exec (.feed f) t = .next u ∧
      u.result = some (.events [.error .checksumMismatch none]) ∧ u.parser.Fresh

/-- R90: when FRAME returns an error, LOOPBACK feeds nothing. -/
def Obligations.LoopbackOfAnError : Prop :=
  ∀ (s : State) (cfg : Profile) (cmd payload : Bytes), s.cfg = some cfg →
    (12 < cmd.length ∨ cfg.maxMessageSize.toNat < payload.length) →
    loopback cmd payload s = .next { s with result := some (.frameError
      (if 12 < cmd.length then .commandTooLong else .oversizedPayload)) }

/-! ## Invariants and whole-machine rules -/

/-- R25, R26, R27, R32, R33, R86: every step keeps the invariant. -/
def Obligations.StepKeepsTheInvariant : Prop :=
  ∀ s t : State, s.Inv → step s = .next t → t.Inv

/-- The invariant holds right after RESET and before the first one. -/
def Obligations.InvariantAtResetAndPowerOn : Prop :=
  State.reset.Inv ∧ State.powerOn.Inv

/-- R35: the state right after RESET holds every value R35 gives, for the profile of that RESET
(model's choice, log 2: the profile is open), and is the RESET of the power-on state. -/
def Obligations.ResetStateIsThatOfTheTable : Prop :=
  State.reset.parser.chunks = [] ∧ State.reset.parser.buf = [] ∧ State.reset.parser.total = 0 ∧
  State.reset.parser.awaiting = 24#32 ∧ State.reset.parser.hdr = none ∧
  State.reset.parser.phase = .awaitingHeader ∧
  State.reset.cfg
    = some { magic := Config.profileMagic, maxMessageSize := Config.profileMax } ∧
  exec (.reset Config.profileMagic Config.profileMax) State.powerOn = .next State.reset

/-- R32: what the invariant says of a Parser between operations of a configured instance. -/
def Obligations.RestingParserBounds : Prop :=
  ∀ (s : State) (cfg : Profile), s.Ready cfg → s.Inv →
    s.parser.total < s.parser.awaiting.toNat ∧
    (s.parser.phase = .awaitingHeader → s.parser.awaiting = 24#32 ∧ s.parser.total ≤ 23) ∧
    (s.parser.phase = .awaitingPayload → ∃ h, s.parser.hdr = some h ∧
      s.parser.awaiting = h.size ∧ 1 ≤ h.size.toNat ∧
      h.size.toNat ≤ cfg.maxMessageSize.toNat ∧ s.parser.total ≤ h.size.toNat - 1) ∧
    s.parser.total = s.parser.buf.length

/-- R28, R183: only a RESET changes the configuration, and it empties the Parser. -/
def Obligations.OnlyResetChangesTheProfile : Prop :=
  ∀ s t : State, step s = .next t → t.cfg ≠ s.cfg →
    ∃ (call : HostCall) (calls : List HostCall) (magic max : U32),
      s.inFeed = none ∧ s.pending = call :: calls ∧
      decodeDescriptor call.descriptor = some (.reset magic max) ∧
      t.cfg = some { magic := magic, maxMessageSize := max } ∧
      t.parser = ParserState.initial

/-- R51: bytes leave the FIFO only at its front, and join it only at its back by a FEED; a RESET
empties it. -/
def Obligations.FifoReachedOnlyAtItsEnds : Prop :=
  ∀ (i : Instr) (s t : State), exec i s = .next t →
    t.parser.buf = s.parser.buf ∨
    (∃ chunk n, i = .feed chunk ∧ t.parser.buf = (s.parser.buf ++ chunk).drop n) ∨
    ∃ magic max, i = .reset magic max ∧ t.parser.buf = []

/-- R166, R182, R194: a program of well-formed host operations, issued one after the other on a
configured instance, runs for any number of steps with no refusal. -/
def Obligations.SequentialProgramsAreSafe : Prop :=
  ∀ (s : State) (cfg : Profile) (is : List Instr), s.Ready cfg → s.refusedMark = false →
    s.pending = programCalls is → (∀ i ∈ is, i.wellFormed = true ∧ i.isHostOp = true) →
    ∀ n : Nat, SafeRun n s

/-- R174, R146, R60: a FRAME or FRAME_CK before or after any other operation, inside a FEED too,
changes neither's result nor the rest of the state. The one exception is a FRAME after a RESET that
changes the configuration it reads. A micro-step has no result of its own, so its state is compared
up to the result port (the model's own, log 4). -/
def Obligations.FramerOperationsInterleave : Prop :=
  ∀ (f i : Instr) (s t : State) (cfg : Profile), f.isFramerOp = true → s.cfg = some cfg →
    exec i s = .next t →
    ∃ r : Result, exec f s = .next { s with result := some r } ∧
      (i.isHostOp = true → exec i { s with result := some r } = .next t) ∧
      (i.isHostOp = false →
        ∃ port, exec i { s with result := some r } = .next { t with result := port }) ∧
      ((∀ magic max, i = .reset magic max → t.cfg = s.cfg) →
        exec f t = .next { t with result := some r })

/-! ## Pseudo-operations and assembly -/

/-- R90: the pieces of FEEDSPLIT are consecutive and have `n` bytes each, but for a shorter last one. -/
def Obligations.FeedSplitPieces : Prop :=
  ∀ (n : Nat) (b : Bytes), 1 ≤ n →
    (pieces n b).flatten = b ∧
    (∀ piece ∈ pieces n b, 1 ≤ piece.length ∧ piece.length ≤ n) ∧
    ∀ piece ∈ (pieces n b).dropLast, piece.length = n

/-- The assembly lines of spec/95_test_vectors.md section 3 that name each operation (R89). -/
def Obligations.AssemblyOfTheTable : Prop :=
  assembleLine "RESET magic=0xD9B4BEF9, max=4000000".toList
      = some (.op (.reset 0xD9B4BEF9#32 4000000#32)) ∧
  assembleLine "STATUS".toList = some (.op .status) ∧
  assembleLine "FEED -".toList = some (.op (.feed [])) ∧
  assembleLine "FRAME \"abc\", 01".toList
      = some (.op (.frame [0x61#8, 0x62#8, 0x63#8] [0x01#8])) ∧
  assembleLine "FRAME_CK \"ping\", 01 02 03 04, 0".toList
      = some (.op (.frameCk [0x70#8, 0x69#8, 0x6e#8, 0x67#8]
          [0x01#8, 0x02#8, 0x03#8, 0x04#8] 0#32))
end

