-- ==== Sys2Proof/Laws/Bytes.lean ====
section
/-! SUPPORT. The laws of the byte primitives of Machine/Bytes.lean. -/

namespace Sys2Proof

@[simp] theorem zeros_length (n : Nat) : (zeros n).length = n := by simp [zeros]

@[simp] theorem wle32_length (v : U32) : (wle32 v).length = 4 := rfl

theorem memRead_length (b : Bytes) (off n : Nat) (h : off + n ≤ b.length) :
    (memRead b off n).length = n := by simp [memRead]; omega

theorem memWrite_length (b : Bytes) (off n : Nat) (v : Bytes) (hv : v.length = n)
    (h : off + n ≤ b.length) : (memWrite b off n v).length = b.length := by
  simp [memWrite, hv]; omega

/-- `byteAt` inside a sequence does not see what follows it. -/
theorem byteAt_append_left (a b : Bytes) (i : Nat) (h : i < a.length) :
    byteAt (a ++ b) i = byteAt a i := by
  simp [byteAt, List.getD_eq_getElem?_getD, List.getElem?_append_left h]

/-- `byteAt` behind a sequence. -/
theorem byteAt_append_right (a b : Bytes) (i : Nat) (h : a.length ≤ i) :
    byteAt (a ++ b) i = byteAt b (i - a.length) := by
  simp [byteAt, List.getD_eq_getElem?_getD, List.getElem?_append_right h]

/-- `byteAt` of the rest of a sequence. -/
theorem byteAt_drop (b : Bytes) (off i : Nat) : byteAt (b.drop off) i = byteAt b (off + i) := by
  simp [byteAt, List.getD_eq_getElem?_getD]

/-- `byteAt` of the front of a sequence. -/
theorem byteAt_take (b : Bytes) (n i : Nat) (h : i < n) : byteAt (b.take n) i = byteAt b i := by
  simp [byteAt, List.getD_eq_getElem?_getD, h]

/-- `le32` at an offset is `le32` at the front of the rest. -/
theorem le32_drop (b : Bytes) (off off' : Nat) : le32 (b.drop off) off' = le32 b (off + off') := by
  simp only [le32, byteAt_drop, Nat.add_assoc]

/-- `le32` inside a sequence does not see what follows it. -/
theorem le32_append_left (a b : Bytes) (off : Nat) (h : off + 4 ≤ a.length) :
    le32 (a ++ b) off = le32 a off := by
  simp only [le32]
  rw [byteAt_append_left a b _ (by omega), byteAt_append_left a b _ (by omega),
    byteAt_append_left a b _ (by omega), byteAt_append_left a b _ (by omega)]

/-- `le32` behind a sequence. -/
theorem le32_append_right (a b : Bytes) (off : Nat) (h : a.length ≤ off) :
    le32 (a ++ b) off = le32 b (off - a.length) := by
  simp only [le32]
  rw [byteAt_append_right a b _ (by omega), byteAt_append_right a b _ (by omega),
    byteAt_append_right a b _ (by omega), byteAt_append_right a b _ (by omega)]
  simp only [show off + 1 - a.length = off - a.length + 1 by omega,
    show off + 2 - a.length = off - a.length + 2 by omega,
    show off + 3 - a.length = off - a.length + 3 by omega]

/-- The value of `le32` on the numbers (R12). -/
theorem le32_toNat (b : Bytes) (off : Nat) : (le32 b off).toNat =
    (byteAt b off).toNat + 2 ^ 8 * (byteAt b (off + 1)).toNat
      + 2 ^ 16 * (byteAt b (off + 2)).toNat + 2 ^ 24 * (byteAt b (off + 3)).toNat := by
  have h0 := (byteAt b off).isLt
  have h1 := (byteAt b (off + 1)).isLt
  have h2 := (byteAt b (off + 2)).isLt
  have h3 := (byteAt b (off + 3)).isLt
  simp only [le32, BitVec.toNat_ofNat]
  omega

end Sys2Proof
end

