-- ==== Sys2Proof/Laws/State.lean ====
section
/-! SUPPORT. One lemma for each field and each update of the state, so that no later proof unfolds an
update. -/

namespace Sys2Proof.Machine

/-! ### `State.returns` -/

@[simp] theorem State.returns_cfg (s : State) (v : Result) : (s.returns v).cfg = s.cfg := rfl
@[simp] theorem State.returns_parser (s : State) (v : Result) : (s.returns v).parser = s.parser := rfl
@[simp] theorem State.returns_inFeed (s : State) (v : Result) : (s.returns v).inFeed = s.inFeed := rfl
@[simp] theorem State.returns_refusedMark (s : State) (v : Result) : (s.returns v).refusedMark = s.refusedMark := rfl
@[simp] theorem State.returns_result (s : State) (v : Result) : (s.returns v).result = some v := rfl
@[simp] theorem State.returns_pending (s : State) (v : Result) : (s.returns v).pending = s.pending := rfl

/-! ### `State.setCfg` -/

@[simp] theorem State.setCfg_cfg (s : State) (cfg : Profile) : (s.setCfg cfg).cfg = some cfg := rfl
@[simp] theorem State.setCfg_parser (s : State) (cfg : Profile) : (s.setCfg cfg).parser = s.parser := rfl
@[simp] theorem State.setCfg_inFeed (s : State) (cfg : Profile) : (s.setCfg cfg).inFeed = s.inFeed := rfl
@[simp] theorem State.setCfg_refusedMark (s : State) (cfg : Profile) : (s.setCfg cfg).refusedMark = s.refusedMark := rfl
@[simp] theorem State.setCfg_result (s : State) (cfg : Profile) : (s.setCfg cfg).result = s.result := rfl
@[simp] theorem State.setCfg_pending (s : State) (cfg : Profile) : (s.setCfg cfg).pending = s.pending := rfl

/-! ### `State.setParser` -/

@[simp] theorem State.setParser_cfg (s : State) (p : ParserState) : (s.setParser p).cfg = s.cfg := rfl
@[simp] theorem State.setParser_parser (s : State) (p : ParserState) : (s.setParser p).parser = p := rfl
@[simp] theorem State.setParser_inFeed (s : State) (p : ParserState) : (s.setParser p).inFeed = s.inFeed := rfl
@[simp] theorem State.setParser_refusedMark (s : State) (p : ParserState) : (s.setParser p).refusedMark = s.refusedMark := rfl
@[simp] theorem State.setParser_result (s : State) (p : ParserState) : (s.setParser p).result = s.result := rfl
@[simp] theorem State.setParser_pending (s : State) (p : ParserState) : (s.setParser p).pending = s.pending := rfl

/-! ### `State.setPending` -/

@[simp] theorem State.setPending_cfg (s : State) (calls : List HostCall) : (s.setPending calls).cfg = s.cfg := rfl
@[simp] theorem State.setPending_parser (s : State) (calls : List HostCall) : (s.setPending calls).parser = s.parser := rfl
@[simp] theorem State.setPending_inFeed (s : State) (calls : List HostCall) : (s.setPending calls).inFeed = s.inFeed := rfl
@[simp] theorem State.setPending_refusedMark (s : State) (calls : List HostCall) : (s.setPending calls).refusedMark = s.refusedMark := rfl
@[simp] theorem State.setPending_result (s : State) (calls : List HostCall) : (s.setPending calls).result = s.result := rfl
@[simp] theorem State.setPending_pending (s : State) (calls : List HostCall) : (s.setPending calls).pending = calls := rfl

/-! ### `State.setRun` -/

@[simp] theorem State.setRun_cfg (s : State) (r : Run) : (s.setRun r).cfg = s.cfg := rfl
@[simp] theorem State.setRun_parser (s : State) (r : Run) : (s.setRun r).parser = r.parser := rfl
@[simp] theorem State.setRun_inFeed (s : State) (r : Run) : (s.setRun r).inFeed = some r.events := rfl
@[simp] theorem State.setRun_refusedMark (s : State) (r : Run) : (s.setRun r).refusedMark = s.refusedMark := rfl
@[simp] theorem State.setRun_result (s : State) (r : Run) : (s.setRun r).result = s.result := rfl
@[simp] theorem State.setRun_pending (s : State) (r : Run) : (s.setRun r).pending = s.pending := rfl

/-! ### `State.returnsRun` -/

@[simp] theorem State.returnsRun_cfg (s : State) (r : Run) : (s.returnsRun r).cfg = s.cfg := rfl
@[simp] theorem State.returnsRun_parser (s : State) (r : Run) : (s.returnsRun r).parser = r.parser := rfl
@[simp] theorem State.returnsRun_inFeed (s : State) (r : Run) : (s.returnsRun r).inFeed = none := rfl
@[simp] theorem State.returnsRun_refusedMark (s : State) (r : Run) : (s.returnsRun r).refusedMark = s.refusedMark := rfl
@[simp] theorem State.returnsRun_result (s : State) (r : Run) : (s.returnsRun r).result = some (.events r.events) := rfl
@[simp] theorem State.returnsRun_pending (s : State) (r : Run) : (s.returnsRun r).pending = s.pending := rfl

/-! ### `State.refuse` -/

@[simp] theorem State.refuse_cfg (s : State) : (s.refuse).cfg = s.cfg := rfl
@[simp] theorem State.refuse_parser (s : State) : (s.refuse).parser = s.parser := rfl
@[simp] theorem State.refuse_inFeed (s : State) : (s.refuse).inFeed = s.inFeed := rfl
@[simp] theorem State.refuse_refusedMark (s : State) : (s.refuse).refusedMark = true := rfl
@[simp] theorem State.refuse_result (s : State) : (s.refuse).result = none := rfl
@[simp] theorem State.refuse_pending (s : State) : (s.refuse).pending = s.pending := rfl

/-! ### `ParserState.append` -/

@[simp] theorem ParserState.append_chunks (p : ParserState) (c : Bytes) :
    (p.append c).chunks = p.chunks ++ [c] := rfl
@[simp] theorem ParserState.append_total (p : ParserState) (c : Bytes) :
    (p.append c).total = p.total + c.length := rfl
@[simp] theorem ParserState.append_awaiting (p : ParserState) (c : Bytes) :
    (p.append c).awaiting = p.awaiting := rfl
@[simp] theorem ParserState.append_hdr (p : ParserState) (c : Bytes) :
    (p.append c).hdr = p.hdr := rfl

/-! ### `ParserState.toAwaitingHeader` -/

@[simp] theorem ParserState.toAwaitingHeader_chunks (p : ParserState) :
    (p.toAwaitingHeader).chunks = p.chunks := rfl
@[simp] theorem ParserState.toAwaitingHeader_total (p : ParserState) :
    (p.toAwaitingHeader).total = p.total := rfl
@[simp] theorem ParserState.toAwaitingHeader_awaiting (p : ParserState) :
    (p.toAwaitingHeader).awaiting = 24#32 := rfl
@[simp] theorem ParserState.toAwaitingHeader_hdr (p : ParserState) :
    (p.toAwaitingHeader).hdr = none := rfl

/-! ### `ParserState.toAwaitingPayload` -/

@[simp] theorem ParserState.toAwaitingPayload_chunks (p : ParserState) (h : Header) :
    (p.toAwaitingPayload h).chunks = p.chunks := rfl
@[simp] theorem ParserState.toAwaitingPayload_total (p : ParserState) (h : Header) :
    (p.toAwaitingPayload h).total = p.total := rfl
@[simp] theorem ParserState.toAwaitingPayload_awaiting (p : ParserState) (h : Header) :
    (p.toAwaitingPayload h).awaiting = h.size := rfl
@[simp] theorem ParserState.toAwaitingPayload_hdr (p : ParserState) (h : Header) :
    (p.toAwaitingPayload h).hdr = some h := rfl

/-! ### `Run.emit`, `Run.raise` -/

@[simp] theorem Run.emit_parser (r : Run) (e : Event) : (r.emit e).parser = r.parser := rfl
@[simp] theorem Run.emit_events (r : Run) (e : Event) : (r.emit e).events = r.events ++ [e] := rfl
@[simp] theorem Run.raise_parser (r : Run) (k : ErrorKind) (c : Option Cause) :
    (r.raise k c).parser = r.parser.toAwaitingHeader := rfl
@[simp] theorem Run.raise_events (r : Run) (k : ErrorKind) (c : Option Cause) :
    (r.raise k c).events = r.events ++ [.error k c] := rfl

/-! ### The fields of the reset states -/

@[simp] theorem ParserState.initial_chunks : ParserState.initial.chunks = [] := rfl
@[simp] theorem ParserState.initial_total : ParserState.initial.total = 0 := rfl
@[simp] theorem ParserState.initial_awaiting : ParserState.initial.awaiting = 24#32 := rfl
@[simp] theorem ParserState.initial_hdr : ParserState.initial.hdr = none := rfl

end Sys2Proof.Machine
end

