-- ==== Sys2Proof/Laws/Ops.lean ====
section
/-! SUPPORT. What the operations of Machine/Ops.lean do, said once. -/

namespace Sys2Proof.Machine

/-! ## The FIFO -/

@[simp] theorem ParserState.initial_buf : ParserState.initial.buf = [] := rfl

@[simp] theorem ParserState.append_buf (p : ParserState) (c : Bytes) :
    (p.append c).buf = p.buf ++ c := by simp [ParserState.buf]

@[simp] theorem ParserState.toAwaitingHeader_buf (p : ParserState) :
    p.toAwaitingHeader.buf = p.buf := rfl

@[simp] theorem ParserState.toAwaitingPayload_buf (p : ParserState) (h : Header) :
    (p.toAwaitingPayload h).buf = p.buf := rfl

/-- Taking from the front of the queue takes from the front of its bytes, whatever the partition
(R102, R24). -/
theorem takeFront_eq (n : Nat) (cs : List Bytes) :
    (takeFront n cs).1 = cs.flatten.take n ∧ (takeFront n cs).2.flatten = cs.flatten.drop n := by
  induction cs generalizing n with
  | nil => simp [takeFront]
  | cons c cs ih =>
    unfold takeFront
    split
    · rename_i h; simp [h]
    · split
      · obtain ⟨h1, h2⟩ := ih (n - c.length)
        rename_i hle
        simp [h1, h2, List.take_append, List.drop_append, List.take_of_length_le hle,
          List.drop_eq_nil_of_le hle]
      · rename_i hlt
        have h0 : n - c.length = 0 := by omega
        simp [List.take_append, List.drop_append, h0]

@[simp] theorem ParserState.extract_block (p : ParserState) (n : Nat) :
    (p.extract n).1 = p.buf.take n := (takeFront_eq n p.chunks).1

@[simp] theorem ParserState.extract_buf (p : ParserState) (n : Nat) :
    (p.extract n).2.buf = p.buf.drop n := (takeFront_eq n p.chunks).2

@[simp] theorem ParserState.extract_total (p : ParserState) (n : Nat) :
    (p.extract n).2.total = p.total - n := rfl

@[simp] theorem ParserState.extract_awaiting (p : ParserState) (n : Nat) :
    (p.extract n).2.awaiting = p.awaiting := rfl

@[simp] theorem ParserState.extract_hdr (p : ParserState) (n : Nat) :
    (p.extract n).2.hdr = p.hdr := rfl

theorem ParserState.unitComplete_iff (p : ParserState) :
    p.unitComplete = true ↔ p.awaiting.toNat ≤ p.total := by simp [ParserState.unitComplete]

theorem ParserState.unitComplete_eq_false_iff (p : ParserState) :
    p.unitComplete = false ↔ p.total < p.awaiting.toNat := by simp [ParserState.unitComplete]

/-! ## Guards: each says when it runs and when it refuses -/

theorem refuse_eq (s : State) : refuse s = .next s.refuse := rfl

theorem whenIdle_of_none {s : State} (h : s.inFeed = none)
    (run : Host.Outcome State Fault Refusal) : whenIdle s run = run := by simp [whenIdle, h]

theorem whenIdle_of_some {s : State} {events : List Event} (h : s.inFeed = some events)
    (run : Host.Outcome State Fault Refusal) : whenIdle s run = .next s.refuse := by
  simp [whenIdle, h, refuse]

theorem whenConfigured_of_some {s : State} {cfg : Profile} (h : s.cfg = some cfg)
    (run : Profile → Host.Outcome State Fault Refusal) : whenConfigured s run = run cfg := by
  simp [whenConfigured, h]

theorem whenConfigured_of_none {s : State} (h : s.cfg = none)
    (run : Profile → Host.Outcome State Fault Refusal) :
    whenConfigured s run = .next s.refuse := by simp [whenConfigured, h, refuse]

end Sys2Proof.Machine
end

