-- ==== Sys2Proof/Laws/Parser.lean ====
section
/-! SUPPORT. What PROC_HDR, PROC_PAY, one iteration of the drain loop and FEED can do, said once. -/

namespace Sys2Proof.Machine

/-- PROC_HDR does one of two things: it reports the error of the block's class and is back in
AwaitingHeader, or it takes a valid header (R121). -/
theorem procHdr_cases (cfg : Profile) (b : Bytes) (r : Run) :
    (∃ k, (classifyHeader cfg b).error = some k ∧ procHdr cfg b r = r.raise k none) ∨
    (∃ h, classifyHeader cfg b = .valid h ∧
      procHdr cfg b r = { parser := r.parser.toAwaitingPayload h, events := r.events }) := by
  cases hc : classifyHeader cfg b <;> simp [procHdr, hc, HeaderClass.error]

/-- PROC_PAY emits exactly one event and is back in AwaitingHeader (R124, R127). -/
theorem procPay_eq (X : External) (h : Header) (b : Bytes) (r : Run) :
    procPay X h b r = { parser := r.parser.toAwaitingHeader
                        events := r.events ++ [payloadEvent X h.cmd b h.checksum] } := by
  unfold procPay payloadEvent codecEvent
  split
  · rfl
  · cases X.decode h.cmd b <;> rfl

theorem processBlock_of_none {r : Run} (X : External) (cfg : Profile) (b : Bytes)
    (h : r.parser.hdr = none) : processBlock X cfg b r = procHdr cfg b r := by
  simp [processBlock, h]

theorem processBlock_of_some {r : Run} {h : Header} (X : External) (cfg : Profile) (b : Bytes)
    (hh : r.parser.hdr = some h) : processBlock X cfg b r = procPay X h b r := by
  simp [processBlock, hh]

/-! ## The drain loop -/

theorem drain_of_incomplete {r : Run} (X : External) (cfg : Profile) (n : Nat)
    (h : r.parser.unitComplete = false) : drain X cfg n r = r := by
  cases n <;> simp [drain, h]

theorem drain_of_complete {r : Run} (X : External) (cfg : Profile) (n : Nat)
    (h : r.parser.unitComplete = true) :
    drain X cfg (n + 1) r = drain X cfg n (drainOnce X cfg r) := by simp [drain, h]

/-- FEED runs on a configured instance between operations (R100). -/
theorem feedWith_eq {s : State} {cfg : Profile} (X : External) (chunk : Bytes)
    (h : s.Ready cfg) :
    feedWith X chunk s = .next (s.returnsRun (feedRun X cfg chunk s.parser)) := by
  rw [feedWith, whenIdle_of_none h.idle, whenConfigured_of_some h.configured]

/-- The micro-steps run inside a FEED (R84). -/
theorem whenInFeed_of_feeding {s : State} {cfg : Profile} {events : List Event}
    (h : s.Feeding cfg events) (run : Profile → Run → Host.Outcome State Fault Refusal) :
    whenInFeed s run = run cfg { parser := s.parser, events := events } := by
  simp [whenInFeed, h.configured, h.running]

/-- A micro-step outside a FEED is refused (R84). -/
theorem whenInFeed_of_idle {s : State} (h : s.inFeed = none)
    (run : Profile → Run → Host.Outcome State Fault Refusal) :
    whenInFeed s run = .next s.refuse := by
  unfold whenInFeed; cases s.cfg <;> simp [h, refuse]

end Sys2Proof.Machine
end

