-- ==== Sys2Proof/Laws/Fetch.lean ====
section
/-! SUPPORT. What `fetch` finds and what `step` does, said once: one of six cases. -/

namespace Sys2Proof.Machine

/-- The six things a step can be. -/
theorem step_cases (s : State) :
    (s.inFeed = none ∧ s.pending = [] ∧ step s = .next s) ∨
    (∃ call calls, s.inFeed = none ∧ s.pending = call :: calls ∧
      decodeDescriptor call.descriptor = none ∧ step s = .next (s.setPending calls).refuse) ∨
    (∃ call calls i, s.inFeed = none ∧ s.pending = call :: calls ∧
      decodeDescriptor call.descriptor = some i ∧ issueRefused call.issue i = true ∧
      step s = .next (s.setPending calls).refuse) ∨
    (∃ call calls i, s.inFeed = none ∧ s.pending = call :: calls ∧
      decodeDescriptor call.descriptor = some i ∧ issueRefused call.issue i = false ∧
      step s = exec i (s.setPending calls)) ∨
    (∃ events, s.inFeed = some events ∧ s.parser.unitComplete = false ∧
      step s = .next (s.returnsRun { parser := s.parser, events := events })) ∨
    (∃ events, s.inFeed = some events ∧ s.parser.unitComplete = true ∧
      step s = exec (decodeMicro s.parser.phase.bit
          (s.parser.extract s.parser.awaiting.toNat).1)
        (s.setParser (s.parser.extract s.parser.awaiting.toNat).2)) := by
  cases hf : s.inFeed with
  | some events =>
    cases hu : s.parser.unitComplete <;> simp [step, fetch, hf, fetchMicro, hu]
  | none =>
    cases hp : s.pending with
    | nil => simp [step, fetch, hf, hp]
    | cons call calls =>
      cases hd : decodeDescriptor call.descriptor with
      | none => simp [step, fetch, hf, hp, fetchCall, hd]
      | some i =>
        cases hi : issueRefused call.issue i <;>
          simp [step, fetch, hf, hp, fetchCall, hd, hi]

end Sys2Proof.Machine
end

