-- ==== Sys2Proof/Laws/Framer.lean ====
section
/-! SUPPORT. What the Framer's shared operations do, said once. -/

namespace Sys2Proof.Machine

@[simp] theorem cmdField_length (cmd : Bytes) (h : cmd.length ≤ 12) :
    (cmdField cmd).length = 12 := by simp [cmdField, cmdFieldSize]; omega

/-- The checks pass exactly when both bounds hold (R144). -/
theorem frameChecks_eq_none_iff (cfg : Profile) (cmd payload : Bytes) :
    frameChecks cfg cmd payload = none ↔
      cmd.length ≤ 12 ∧ payload.length ≤ cfg.maxMessageSize.toNat := by
  simp [frameChecks, commandTooLong, exceedsMax, cmdFieldSize]
  split <;> simp <;> omega

/-- A failed check names CommandTooLong before OversizedPayload (R144, D29). -/
theorem frameChecks_eq_some {cfg : Profile} {cmd payload : Bytes} {k : ErrorKind}
    (h : frameChecks cfg cmd payload = some k) :
    (12 < cmd.length ∧ k = .commandTooLong) ∨
    (cmd.length ≤ 12 ∧ cfg.maxMessageSize.toNat < payload.length ∧ k = .oversizedPayload) := by
  simp only [frameChecks, commandTooLong, exceedsMax, cmdFieldSize, decide_eq_true_eq] at h
  split at h
  · left; simp_all
  · split at h <;> simp_all

/-- Writing at the end of what is written so far: BUILD fills its buffer from the front. -/
theorem memWrite_at_end (a v : Bytes) (n m : Nat) (hv : v.length = n) (hn : n ≤ m) :
    memWrite (a ++ zeros m) a.length n v = (a ++ v) ++ zeros (m - n) := by
  subst hv
  simp [memWrite, List.drop_append, zeros]

end Sys2Proof.Machine
end

