-- ==== Sys2Proof/Machine/Instances.lean ====
section
/-! DEFINITION. Several FPB instances: independent copies of the state (spec/10_state.md R38), any of
which may step next (spec/60_exceptions.md R174). -/

namespace Sys2Proof.Machine

/-- N connections are N copies of the record of R20 (R38). -/
abbrev Instances := List State

/-- A step of the instance numbered `k`: it may change that instance and no other (R174). An outcome
that is no next state, or a number with no instance, gives none. A refusal sets the Refused mark of
that instance only: DESIGN CHOICE (log 23). -/
def Instances.stepAt (k : Nat) (xs : Instances) : Option Instances :=
  match xs[k]? with
  | none => none
  | some s =>
    match step s with
    | .next t => some (xs.set k t)
    | .fault _ => none
    | .refused _ => none

/-- The mark of a run over all its instances (R166, R193), under the reading that it is one for the
run (log 23): set when some instance's mark is. -/
def Instances.refusedMark (xs : Instances) : Bool := xs.any State.refusedMark

end Sys2Proof.Machine
end

