-- ==== Sys2Proof/Laws/Instances.lean ====
section
/-! SUPPORT. What a step of one instance does to the collection (spec/10_state.md R38,
spec/60_exceptions.md R174). -/

namespace Sys2Proof.Machine

/-- Everything a step of the instance numbered `k` can do. -/
theorem Instances.stepAt_eq_some {k : Nat} {xs ys : Instances} (h : xs.stepAt k = some ys) :
    ∃ s t, xs[k]? = some s ∧ step s = .next t ∧ ys = xs.set k t := by
  unfold Instances.stepAt at h
  split at h
  · cases h
  · split at h
    · exact ⟨_, _, ‹_›, ‹_›, (Option.some.inj h).symm⟩
    · cases h
    · cases h

/-- It leaves every other instance as it is. -/
theorem Instances.stepAt_other {j k : Nat} {xs ys : Instances} (h : xs.stepAt j = some ys)
    (hjk : j ≠ k) : ys[k]? = xs[k]? := by
  obtain ⟨s, t, -, -, rfl⟩ := Instances.stepAt_eq_some h
  simp [hjk]

end Sys2Proof.Machine
end

