-- ==== Sys2Proof/Laws/PerInstr.lean ====
section
/-! SUPPORT. Facts stated for each instruction as syntax. -/

namespace Sys2Proof.Laws.DescriptorLength

/-- The encoder writes as many descriptor bytes as the total length column of R81 says. -/
def Statement (i : Instr) : Prop := (descriptorBytes i).length = tableLength i

theorem reset (magic max : U32) : Statement (.reset magic max) := rfl

theorem feed (chunk : Bytes) : Statement (.feed chunk) := by
  simp [Statement, descriptorBytes, tableLength, lengthField32]; omega

theorem status : Statement .status := rfl

theorem frame (cmd payload : Bytes) : Statement (.frame cmd payload) := by
  simp [Statement, descriptorBytes, tableLength, lengthField32, lengthField8]; omega

theorem frameCk (cmd payload : Bytes) (ck : U32) : Statement (.frameCk cmd payload ck) := by
  simp [Statement, descriptorBytes, tableLength, lengthField32, lengthField8]; omega

theorem procHdr (block : Bytes) : Statement (.procHdr block) := rfl

theorem procPay (block : Bytes) : Statement (.procPay block) := rfl

end Sys2Proof.Laws.DescriptorLength
end

