-- ==== Sys2Proof/Tests/Slice0.lean ====
section
/-! SUPPORT. The model's own tests. Expected results are those of spec/95_test_vectors.md and of the
rules named; the digest prefixes are its table K0 to K7 and the codec its example EXC. -/

namespace Sys2Proof.Tests

set_option Elab.async false

open Sys2Proof.Machine

/-! ## Fixtures -/

def ofHex (l : List Nat) : Bytes := l.map (BitVec.ofNat 8)

/-- Configuration EX. -/
def ex : Profile := { magic := 0xD9B4BEF9#32, maxMessageSize := 4000000#32 }

/-- Configuration EXS. -/
def exs : Profile := { magic := 0xD9B4BEF9#32, maxMessageSize := 16#32 }

/-- A digest with the given first four bytes. -/
def digest (a b c d : Nat) : Digest :=
  #v[BitVec.ofNat 8 a, BitVec.ofNat 8 b, BitVec.ofNat 8 c, BitVec.ofNat 8 d,
    0#8, 0#8, 0#8, 0#8, 0#8, 0#8, 0#8, 0#8, 0#8, 0#8, 0#8, 0#8, 0#8, 0#8,
    0#8, 0#8, 0#8, 0#8, 0#8, 0#8, 0#8, 0#8, 0#8, 0#8, 0#8, 0#8, 0#8, 0#8]

/-- The digest prefixes K0 to K3 and the codec EXC: the command "bad" fails with "E", any other gives
the pair of command and payload. -/
def exc : External :=
  { hash256 := fun p =>
      if p = [] then digest 0x5d 0xf6 0xe0 0xe2
      else if p = ofHex [0x01] then digest 0x9c 0x12 0xcf 0xdc
      else if p = ofHex [0x01, 0x02, 0x03, 0x04] then digest 0x8d 0xe4 0x72 0xe2
      else digest 0x9a 0xa8 0x36 0xbd
    decode := fun cmd p =>
      if cmd = ofHex [0x62, 0x61, 0x64] then .err { image := ofHex [0x45] }
      else .ok { image := lengthField8 cmd.length ++ cmd ++ p } }

/-- `Pkt(cmd, payload)` of EXC. -/
def pkt (cmd p : List Nat) : Event := .packet { image := lengthField8 cmd.length ++ ofHex cmd ++ ofHex p }

def fVerack : Bytes := ofHex [0xf9, 0xbe, 0xb4, 0xd9, 0x76, 0x65, 0x72, 0x61, 0x63, 0x6b, 0x00, 0x00, 0x00, 0x00, 0x00, 0x00, 0x00, 0x00, 0x00, 0x00, 0x5d, 0xf6, 0xe0, 0xe2]
def fPing : Bytes := ofHex [0xf9, 0xbe, 0xb4, 0xd9, 0x70, 0x69, 0x6e, 0x67, 0x00, 0x00, 0x00, 0x00, 0x00, 0x00, 0x00, 0x00, 0x04, 0x00, 0x00, 0x00, 0x8d, 0xe4, 0x72, 0xe2, 0x01, 0x02, 0x03, 0x04]
def fBad : Bytes := ofHex [0xf9, 0xbe, 0xb4, 0xd9, 0x62, 0x61, 0x64, 0x00, 0x00, 0x00, 0x00, 0x00, 0x00, 0x00, 0x00, 0x00, 0x01, 0x00, 0x00, 0x00, 0x9c, 0x12, 0xcf, 0xdc, 0x01]

/-- A configured instance between operations, AwaitingHeader, empty FIFO. -/
def idle (cfg : Profile) : State := { State.powerOn with cfg := some cfg }

/-- Inside a FEED, with a Header or none, nothing buffered. -/
def feeding (cfg : Profile) (hdr : Option Header) (awaiting : U32) : State :=
  { idle cfg with
    parser := { ParserState.initial with hdr := hdr, awaiting := awaiting }, inFeed := some [] }

def nextState : Host.Outcome State Fault Refusal → Option State
  | .next s => some s
  | .fault _ => none
  | .refused _ => none

/-- The result, the phase, `awaiting` and `total` after an operation. -/
def seen (o : Host.Outcome State Fault Refusal) :
    Option (Option Result × Phase × U32 × Nat) :=
  (nextState o).map fun s => (s.result, s.parser.phase, s.parser.awaiting, s.parser.total)

/-- The events so far, the phase and `awaiting` after a micro-step. -/
def seenMicro (o : Host.Outcome State Fault Refusal) :
    Option (Option (List Event) × Phase × U32) :=
  (nextState o).map fun s => (s.inFeed, s.parser.phase, s.parser.awaiting)

/-! ## WellFormed refuses an ill-formed term at each check -/

theorem test_wellFormed_feed : (Instr.feed (zeros (2 ^ 32))).wellFormed = false := by
  simp only [Instr.wellFormed, fitsU32, zeros_length]
  decide

theorem test_wellFormed_frame_cmd : (Instr.frame (zeros 256) []).wellFormed = false := by
  decide +kernel

theorem test_wellFormed_frame_payload :
    (Instr.frame [] (zeros (2 ^ 32))).wellFormed = false := by
  simp only [Instr.wellFormed, fitsU32, zeros_length]
  decide

theorem test_wellFormed_frameCk_cmd : (Instr.frameCk (zeros 256) [] 0#32).wellFormed = false := by
  decide +kernel

theorem test_wellFormed_frameCk_payload :
    (Instr.frameCk [] (zeros (2 ^ 32)) 0#32).wellFormed = false := by
  simp only [Instr.wellFormed, fitsU32, zeros_length]
  decide

theorem test_wellFormed_procHdr : (Instr.procHdr (zeros 23)).wellFormed = false := by decide

theorem test_wellFormed_procPay :
    (Instr.procPay (zeros (2 ^ 32))).wellFormed = false := by
  simp only [Instr.wellFormed, fitsU32, zeros_length]
  decide

/-! ## Decoding: the words of section 3 and of the opcode table -/

theorem test_decode_reset : decodeDescriptor (ofHex [0x00, 0xf9, 0xbe, 0xb4, 0xd9, 0x10, 0x00, 0x00, 0x00])
    = some (.reset 0xD9B4BEF9#32 16#32) := by decide

theorem test_decode_feed :
    decodeDescriptor (ofHex [0x01, 0x0a, 0x00, 0x00, 0x00, 0xf9, 0xbe, 0xb4, 0xd9, 0x76, 0x65, 0x72, 0x61, 0x63, 0x6b])
    = some (.feed (ofHex [0xf9, 0xbe, 0xb4, 0xd9, 0x76, 0x65, 0x72, 0x61, 0x63, 0x6b])) := by decide

theorem test_decode_status : decodeDescriptor (ofHex [0x02]) = some .status := by decide

theorem test_decode_frame : decodeDescriptor (ofHex [0x10, 0x03, 0x61, 0x62, 0x63, 0x01, 0x00, 0x00, 0x00, 0x01])
    = some (.frame (ofHex [0x61, 0x62, 0x63]) (ofHex [0x01])) := by decide

theorem test_decode_frameCk :
    decodeDescriptor (ofHex [0x11, 0x04, 0x70, 0x69, 0x6e, 0x67, 0x04, 0x00, 0x00, 0x00, 0x01, 0x02, 0x03, 0x04, 0x00, 0x00, 0x00, 0x00])
    = some (.frameCk (ofHex [0x70, 0x69, 0x6e, 0x67]) (ofHex [0x01, 0x02, 0x03, 0x04]) 0#32) := by decide

theorem test_decode_procHdr : decode (.micro false (zeros 24)) = some (.procHdr (zeros 24)) := by
  decide

theorem test_decode_procPay : decode (.micro true (ofHex [0x01])) = some (.procPay (ofHex [0x01])) := by
  decide

theorem test_decode_reserved : decodeDescriptor (ofHex [0x03]) = none := by decide

theorem test_decode_truncated : decodeDescriptor (ofHex [0x01, 0x02, 0x00, 0x00, 0x00, 0xaa]) = none := by decide

theorem test_decode_trailing : decodeDescriptor (ofHex [0x02, 0x00]) = none := by decide

/-- Program P1 is the concatenation of its descriptors (R91): RESET and the first FEED. -/
theorem test_decode_program :
    decodeProgram (ofHex [0x00, 0xf9, 0xbe, 0xb4, 0xd9, 0x00, 0x09, 0x3d, 0x00, 0x01, 0x01, 0x00, 0x00, 0x00, 0xf9, 0x02])
    = some [.reset 0xD9B4BEF9#32 4000000#32, .feed (ofHex [0xf9]), .status] := by decide

/-- Each row of the opcode table, with its operand bytes zero. -/
theorem test_table_words :
    decodeTableWord 8 0x00 = some (.reset 0#32 0#32) ∧ decodeTableWord 8 0x01 = some (.feed []) ∧
    decodeTableWord 8 0x02 = some .status ∧ decodeTableWord 8 0x10 = some (.frame [] []) ∧
    decodeTableWord 8 0x11 = some (.frameCk [] [] 0#32) ∧
    decodeTableWord 1 0 = some (.procHdr (zeros 24)) ∧ decodeTableWord 1 1 = some (.procPay []) := by
  decide

/-- Each row runs as the first operation after reset, with no refusal. -/
theorem test_first_steps :
    [(8, 0x00), (8, 0x01), (8, 0x02), (8, 0x10), (8, 0x11), (1, 0), (1, 1)].all (fun r =>
      (nextState (step (State.reset.withFetchWord r.1 r.2))).any fun s => !s.refusedMark) = true := by
  decide +kernel

/-! ## One or two tests for each instruction -/

/-- RESET's worked example (R150), and vector S3: the header that waits is gone, no event. -/
theorem test_reset_in_payload :
    seen (exec (.reset 0xD9B4BEF9#32 4000000#32)
      { idle exs with parser := { chunks := [(ofHex [0x01, 0x02])], total := 2, awaiting := 4#32, hdr := some { cmd := (ofHex [0x70, 0x69, 0x6e, 0x67]), size := 4#32, checksum := 0#32 } } })
    = some (some .done, .awaitingHeader, 24#32, 0) := by decide

/-- Vector S6. -/
theorem test_status :
    seen (exec .status { idle ex with parser := { chunks := [], total := 0, awaiting := 4#32, hdr := some { cmd := (ofHex [0x70, 0x69, 0x6e, 0x67]), size := 4#32, checksum := 0xE272E48D#32 } } })
    = some (some (.status { phase := .awaitingPayload, awaiting := 4#32, total := 0, hdr := some { cmd := (ofHex [0x70, 0x69, 0x6e, 0x67]), size := 4#32, checksum := 0xE272E48D#32 }, magic := 0xD9B4BEF9#32, max := 4000000#32 }), .awaitingPayload, 4#32, 0) := by decide

/-- Vector V6: three frames in one chunk, the last rejected by the codec. -/
theorem test_feed_three_frames :
    seen (feedWith exc (fVerack ++ fPing ++ fBad) (idle ex))
    = some (some (.events [pkt [0x76, 0x65, 0x72, 0x61, 0x63, 0x6b] [], pkt [0x70, 0x69, 0x6e, 0x67] [1, 2, 3, 4],
        .error .payloadDecodeError (some { image := ofHex [0x45] })]), .awaitingHeader, 24#32, 0) := by
  decide +kernel

/-- Vector V11: one leading byte keeps every later candidate one byte off, and `e2` waits. -/
theorem test_feed_misaligned :
    (nextState (feedWith exc (0x00#8 :: (fVerack ++ fVerack)) (idle ex))).map
        (fun s => (s.result, s.parser.buf))
    = some (some (.events [.error .invalidMagic none, .error .invalidMagic none]), (ofHex [0xe2])) := by
  decide +kernel

/-- EXTRACT's worked example (R102): 24 bytes across chunks of 10 and 20. -/
theorem test_extract_across_chunks :
    (takeFront 24 [zeros 10, fPing.take 20]) = (zeros 10 ++ fPing.take 14, [(fPing.take 20).drop 14]) := by
  decide

/-- Vector H5: no terminator and a size above the maximum report MalformedCommand only. -/
theorem test_procHdr_order :
    seenMicro (exec (.procHdr (ofHex [0xf9, 0xbe, 0xb4, 0xd9, 0x61, 0x62, 0x63, 0x64, 0x65, 0x66, 0x67, 0x68, 0x69, 0x6a, 0x6b, 0x6c, 0x64, 0x00, 0x00, 0x00, 0x00, 0x00, 0x00, 0x00])) (feeding exs none 24#32))
    = some (some [.error .malformedCommand none], .awaitingHeader, 24#32) := by decide +kernel

/-- Vector H6: padding that is not zero is accepted, the command ends at the first 0x00. -/
theorem test_procHdr_padding :
    (nextState (exec (.procHdr (ofHex [0xf9, 0xbe, 0xb4, 0xd9, 0x63, 0x6d, 0x64, 0x00, 0xff, 0xff, 0xff, 0xff, 0xff, 0xff, 0xff, 0xff, 0x00, 0x00, 0x00, 0x00, 0x5d, 0xf6, 0xe0, 0xe2])) (feeding ex none 24#32))).map (fun s => (s.inFeed, s.parser.hdr, s.parser.awaiting))
    = some (some [], some { cmd := (ofHex [0x63, 0x6d, 0x64]), size := 0#32, checksum := 0xE2E0F65D#32 }, 0#32) := by
  decide +kernel

/-- Vector P-2: one payload byte changed. -/
theorem test_procPay_mismatch :
    seenMicro (procPayWith exc (ofHex [0x00, 0x02, 0x03, 0x04]) (feeding ex (some { cmd := (ofHex [0x70, 0x69, 0x6e, 0x67]), size := 4#32, checksum := 0xE272E48D#32 }) 4#32))
    = some (some [.error .checksumMismatch none], .awaitingHeader, 24#32) := by decide +kernel

/-- Vector P-4: the checksum is good and the codec fails. -/
theorem test_procPay_codec_failure :
    seenMicro (procPayWith exc (ofHex [0x01]) (feeding ex (some { cmd := (ofHex [0x62, 0x61, 0x64]), size := 1#32, checksum := 0xDCCF129C#32 }) 1#32))
    = some (some [.error .payloadDecodeError (some { image := ofHex [0x45] })], .awaitingHeader, 24#32) := by
  decide +kernel

/-- Vector W2. -/
theorem test_frame_ping :
    (nextState (frameWith exc (ofHex [0x70, 0x69, 0x6e, 0x67]) (ofHex [0x01, 0x02, 0x03, 0x04]) (idle ex))).map (·.result)
    = some (some (.frame fPing)) := by decide +kernel

/-- Vector W8: a command too long and a payload too large report CommandTooLong. -/
theorem test_frame_check_order :
    (nextState (frameWith exc (zeros 13) (zeros 17) (idle exs))).map (·.result)
    = some (some (.frameError .commandTooLong)) := by decide +kernel

/-- Vector W4. -/
theorem test_frameCk_verbatim :
    (nextState (exec (.frameCk (ofHex [0x70, 0x69, 0x6e, 0x67]) (ofHex [0x01, 0x02, 0x03, 0x04]) 0#32) (idle ex))).map (·.result)
    = some (some (.frame (ofHex [0xf9, 0xbe, 0xb4, 0xd9, 0x70, 0x69, 0x6e, 0x67, 0x00, 0x00, 0x00, 0x00, 0x00, 0x00, 0x00, 0x00, 0x04, 0x00, 0x00, 0x00, 0x00, 0x00, 0x00, 0x00, 0x01, 0x02, 0x03, 0x04]))) := by
  decide +kernel

/-- W7's condition on FRAME_CK: a payload of 17 bytes above the maximum 16. -/
theorem test_frameCk_oversized :
    (nextState (exec (.frameCk (ofHex [0x70, 0x69, 0x6e, 0x67]) (zeros 17) 0#32) (idle exs))).map (·.result)
    = some (some (.frameError .oversizedPayload)) := by decide +kernel

/-- Vector S1: STATUS before the first RESET. -/
theorem test_refused_unconfigured :
    (nextState (exec .status State.powerOn)).map (fun s => (s.refusedMark, s.result))
    = some (true, none) := by decide

/-- Vector S4: a reserved opcode. -/
theorem test_refused_reserved :
    (nextState (step ((idle ex).withCall (ofHex [0x03])))).map (fun s => (s.refusedMark, s.parser))
    = some (true, ParserState.initial) := by decide

/-- Error and opcode numbers (R87). -/
theorem test_error_codes :
    [ErrorKind.invalidMagic, .malformedCommand, .oversizedMessage, .checksumMismatch,
      .payloadDecodeError, .commandTooLong, .oversizedPayload].map ErrorKind.code
    = [1, 2, 3, 4, 5, 6, 7] := by decide

/-- Assembly of a pseudo-operation and of a command with an escape (R89, R90). -/
theorem test_assemble_pseudo :
    assembleLine "LOOPBACK \"abc\", 01 ; round trip".toList = some (.loopback (ofHex [0x61, 0x62, 0x63]) (ofHex [0x01])) ∧
    assembleLine "FEEDSPLIT 1, f9 be".toList = some (.feedSplit 1 (ofHex [0xf9, 0xbe])) ∧
    assembleLine "FRAME \"ab\\x00cd\", -".toList = some (.op (.frame (ofHex [0x61, 0x62, 0x00, 0x63, 0x64]) [])) := by
  decide +kernel

/-- Program P2: the second frame stands on a continuation line (log 24). -/
theorem test_assemble_continuation :
    assemble ["RESET   magic=0xD9B4BEF9, max=4000000".toList,
      "FEED    f9 be b4 d9 70 69 6e 67 00 00 00 00 00 00 00 00 04 00 00 00 8d e4 72 e2 00 02 03 04".toList,
      "        f9 be b4 d9 76 65 72 61 63 6b 00 00 00 00 00 00 00 00 00 00 5d f6 e0 e2".toList,
      "STATUS".toList]
    = some [.op (.reset 0xD9B4BEF9#32 4000000#32),
        .op (.feed (fPing.take 24 ++ ofHex [0x00, 0x02, 0x03, 0x04] ++ fVerack)), .op .status] := by
  decide +kernel

/-- A continuation after an operation that does not end in hex bytes is no program. -/
theorem test_assemble_no_continuation : assemble ["STATUS".toList, " f9".toList] = none := by
  decide +kernel

end Sys2Proof.Tests
end

