-- ==== Sys2Proof/Tests/Witnesses.lean ====
section
/-! SUPPORT. For every statement of Certificates/Slice0/Obligations.lean that has hypotheses, concrete
states and operands that meet them, at a boundary value of each clause. -/

namespace Sys2Proof.Tests

open Sys2Proof.Machine

/-! ## States -/

theorem idle_ready (cfg : Profile) : (idle cfg).Ready cfg := ⟨rfl, rfl⟩

theorem idle_fresh (cfg : Profile) : (idle cfg).parser.Fresh := ⟨rfl, rfl, rfl, rfl⟩

theorem idle_inv (cfg : Profile) : (idle cfg).Inv :=
  ⟨rfl, fun _ => rfl, fun _ h => by simp [idle, State.powerOn] at h,
    fun _ h => by simp [idle, State.powerOn] at h⟩

theorem feeding_feeding (cfg : Profile) (hdr : Option Header) (awaiting : U32) :
    (feeding cfg hdr awaiting).Feeding cfg [] := ⟨rfl, rfl⟩

/-- A Header of the command "ping". -/
def hPing (size : U32) : Header :=
  { cmd := ofHex [0x70, 0x69, 0x6e, 0x67], size := size, checksum := 0xE272E48D#32 }

/-- Between operations of EX, AwaitingPayload of 4 bytes, 3 of them buffered: one below complete. -/
def waiting : State :=
  { idle ex with parser := { chunks := [zeros 3], total := 3, awaiting := 4#32, hdr := some (hPing 4#32) } }

theorem waiting_inv : waiting.Inv :=
  ⟨by decide, by decide, fun _ h => by simp [waiting, idle, State.powerOn] at h,
    fun _ h => by simp [waiting, idle, State.powerOn] at h⟩

/-- `idle ex` with one call pending. -/
def calling (issue : Issue) (descriptor : Bytes) : State :=
  { idle ex with pending := [{ issue := issue, descriptor := descriptor }] }

/-- A frame of the command "ping" with no payload. -/
def emptyPing : Bytes :=
  wle32 0xD9B4BEF9#32 ++ ofHex [0x70, 0x69, 0x6e, 0x67] ++ zeros 8 ++ wle32 0#32 ++ wle32 0xE2E0F65D#32

/-- A header block of EX that declares `size` bytes. -/
def block (size : U32) : Bytes :=
  wle32 0xD9B4BEF9#32 ++ ofHex [0x70, 0x69, 0x6e, 0x67] ++ zeros 8 ++ wle32 size ++ wle32 0xE272E48D#32

/-- A block with twelve non-zero command bytes. -/
def fullBlock : Bytes :=
  wle32 0xD9B4BEF9#32 ++ List.replicate 12 0x61#8 ++ wle32 0#32 ++ wle32 0#32

/-! ## RESET and STATUS -/

theorem witness_ResetWritesEveryField : (idle ex).inFeed = none ∧ State.powerOn.inFeed = none ∧
    waiting.inFeed = none := ⟨rfl, rfl, rfl⟩

theorem witness_ResetIsIdempotent : ∃ t, exec (.reset 0#32 0xFFFFFFFF#32) waiting = .next t := ⟨_, rfl⟩

theorem witness_StatusReturnsTheRecord : (idle ex).Ready ex ∧ waiting.Ready ex := ⟨⟨rfl, rfl⟩, rfl, rfl⟩

theorem witness_StatusHasNoSideEffect : (idle exs).Ready exs ∧ waiting.Ready ex := ⟨⟨rfl, rfl⟩, rfl, rfl⟩

/-! ## Refusals -/

theorem witness_UnconfiguredOperationsRefused :
    State.powerOn.cfg = none ∧ ∀ magic max, Instr.status ≠ .reset magic max :=
  ⟨rfl, fun _ _ => Instr.noConfusion⟩

theorem witness_OverlapWithRunningFeed : (feeding ex none 24#32).Feeding ex [] ∧
    ((Instr.feed []).isHostOp = true ∧ (Instr.feed []).isFramerOp = false) ∧
    (Instr.reset 0#32 0#32).isHostOp = true ∧ Instr.status.isFramerOp = false ∧
    (Instr.frame [] []).isFramerOp = true ∧ (Instr.frameCk [] [] 0#32).isFramerOp = true :=
  ⟨⟨rfl, rfl⟩, ⟨rfl, rfl⟩, rfl, rfl, rfl, rfl⟩

theorem witness_UnselectedMicroStepsRefused :
    (idle ex).inFeed = none ∧
    (feeding ex (some (hPing 24#32)) 24#32).parser.hdr ≠ none ∧
    (zeros 23).length ≠ 24 ∧ (zeros 25).length ≠ 24 ∧
    (∀ h, (feeding ex none 24#32).parser.hdr = some h → (zeros 24).length ≠ h.size.toNat) ∧
    (∀ h, (feeding ex (some (hPing 4#32)) 4#32).parser.hdr = some h →
      (zeros 3).length ≠ h.size.toNat) :=
  ⟨rfl, by decide, by decide, by decide, fun _ h => (by cases h), fun _ h => (by cases h; decide)⟩

theorem witness_IssuedCallsRefusedOrRun :
    ((calling .reentrant [0x02#8]).inFeed = none ∧
      (calling .reentrant [0x02#8]).pending = [⟨.reentrant, [0x02#8]⟩] ∧
      decodeDescriptor [0x02#8] = some .status) ∧
    ((calling .overlapping [0x02#8]).pending = [⟨.overlapping, [0x02#8]⟩] ∧
      Instr.status.isFramerOp = false) ∧
    ((calling .overlapping (0x10#8 :: zeros 5)).pending = [⟨.overlapping, 0x10#8 :: zeros 5⟩] ∧
      decodeDescriptor (0x10#8 :: zeros 5) = some (.frame [] []) ∧
      (Instr.frame [] []).isFramerOp = true) := by
  refine ⟨⟨rfl, rfl, by decide⟩, ⟨rfl, rfl⟩, rfl, by decide, rfl⟩

theorem witness_ReservedAndMalformedCallsRefused :
    (calling .sequential []).inFeed = none ∧
    (calling .sequential []).pending = [⟨.sequential, []⟩] ∧ decodeDescriptor [] = none ∧
    decodeDescriptor [0x02#8, 0x00#8] = none ∧
    ∀ op ∈ [0x03#8, 0x0f#8, 0x12#8, 0xff#8],
      ((0x03 ≤ op.toNat ∧ op.toNat ≤ 0x0f) ∨ 0x12 ≤ op.toNat) ∧
      (calling .sequential [op]).pending = [⟨.sequential, [op]⟩] := by
  refine ⟨rfl, rfl, rfl, by decide, ?_⟩
  intro op h
  exact ⟨by revert op; decide, rfl⟩

theorem witness_RefusedMarkIsSticky : ∃ t,
    step { calling .sequential [0x02#8] with refusedMark := true } = .next t ∧
    t.result ≠ none := ⟨_, rfl, by decide⟩

/-- STATUS before the first RESET, a reserved opcode, an overlapping STATUS and a re-entrant one. -/
theorem witness_OnlyRefusalsSetTheMark :
    (∃ t, ({ State.powerOn with pending := [⟨.sequential, [0x02#8]⟩] } : State).Inv ∧
      step { State.powerOn with pending := [⟨.sequential, [0x02#8]⟩] } = .next t ∧
      t.refusedMark = true) ∧
    ∀ c ∈ [(Issue.sequential, 0x03#8), (.overlapping, 0x02#8), (.reentrant, 0x02#8)], ∃ t,
      (calling c.1 [c.2]).Inv ∧ step (calling c.1 [c.2]) = .next t ∧
      (calling c.1 [c.2]).refusedMark = false ∧ t.refusedMark = true := by
  refine ⟨⟨_, ⟨rfl, fun _ => rfl, fun _ h => (by cases h), fun _ h => (by cases h)⟩, rfl, rfl⟩, ?_⟩
  intro c h
  have hi : (calling c.1 [c.2]).Inv :=
    ⟨rfl, fun _ => rfl, fun _ h => (by cases h), fun _ h => (by cases h)⟩
  rcases h with _ | ⟨_, _ | ⟨_, _ | ⟨_, h⟩⟩⟩
  · exact ⟨_, hi, rfl, rfl, rfl⟩
  · exact ⟨_, hi, rfl, rfl, rfl⟩
  · exact ⟨_, hi, rfl, rfl, rfl⟩
  · cases h

/-! ## Steps -/

theorem witness_StepRunsTheDecodedCall :
    (calling .sequential [0x02#8]).inFeed = none ∧
    (calling .sequential [0x02#8]).pending = [⟨.sequential, [0x02#8]⟩] ∧
    decodeDescriptor [0x02#8] = some .status ∧ (idle ex).inFeed = none ∧ (idle ex).pending = [] :=
  ⟨rfl, rfl, by decide, rfl, rfl⟩

/-- A header at exactly 24 bytes, a payload of 0 bytes, and 23 bytes of a header. -/
theorem witness_StepInsideFeed :
    (let s := { feeding ex none 24#32 with
        parser := { ParserState.initial with chunks := [zeros 24], total := 24 } };
      s.inFeed = some [] ∧ s.parser.awaiting.toNat ≤ s.parser.total) ∧
    (let s := feeding ex (some (hPing 0#32)) 0#32;
      s.inFeed = some [] ∧ s.parser.awaiting.toNat ≤ s.parser.total) ∧
    (let s := { feeding ex none 24#32 with
        parser := { ParserState.initial with chunks := [zeros 23], total := 23 } };
      s.inFeed = some [] ∧ s.parser.total < s.parser.awaiting.toNat) := by decide

/-! ## Encodings -/

theorem witness_DecodeOfEncode : (Instr.frame (zeros 255) []).wellFormed = true ∧
    (Instr.procHdr (zeros 24)).wellFormed = true ∧ (Instr.procPay []).wellFormed = true := by
  decide +kernel

theorem witness_EncodingIsUnique : decode (.descriptor [0x02#8]) = some .status ∧
    decode (.micro true []) = some (.procPay []) := by decide

theorem witness_WrongByteCountDoesNotDecode :
    ((Instr.feed [0xf9#8]).wellFormed = true ∧ (Instr.feed [0xf9#8]).isHostOp = true) ∧
    5 < tableLength (.feed [0xf9#8]) ∧ [0x00#8] ≠ [] := by decide

theorem witness_ProgramDecodeOfEncode :
    ∀ i ∈ [Instr.status, .feed [0xf9#8]], i.wellFormed = true ∧ i.isHostOp = true := by decide

theorem witness_OpcodeBitsSelectTheGroup :
    decodeDescriptor (0x10#8 :: zeros 5) = some (.frame [] []) ∧
    decodeDescriptor (0x11#8 :: zeros 9) = some (.frameCk [] [] 0#32) := by decide

/-! ## Byte order and header blocks -/

theorem witness_LittleEndianRoundTrip : 4 ≤ (zeros 4).length := by decide

theorem witness_MagicComparedByteForByte : (zeros 24).length = 24 ∧ fVerack.length = 24 := by decide

theorem witness_ValidHeaderFields :
    fVerack.length = 24 ∧ (∃ h, classifyHeader ex fVerack = .valid h) ∧
    (block 16#32).length = 24 ∧ (∃ h, classifyHeader exs (block 16#32) = .valid h) :=
  ⟨rfl, ⟨_, rfl⟩, rfl, _, rfl⟩

/-- A terminator at the field's first byte, at its fourth and at its last. -/
theorem witness_PaddingIsNotChecked :
    (zeros 24).length = 24 ∧ (zeros 24).getD (4 + 0) 1#8 = 0#8 ∧
    (∀ i, i ≤ 4 + 0 ∨ 16 ≤ i →
      (zeros 24).getD i 0#8 = (zeros 5 ++ [0xff#8] ++ zeros 18).getD i 0#8) ∧
    (block 0#32).getD (4 + 4) 1#8 = 0#8 ∧
    (wle32 0#32 ++ List.replicate 11 0x61#8 ++ zeros 9).getD (4 + 11) 1#8 = 0#8 := by
  refine ⟨rfl, by decide, ?_, by decide, by decide⟩
  intro i hi
  rcases Nat.lt_or_ge i 24 with h | h
  · have : ∀ i < 24, i ≤ 4 + 0 ∨ 16 ≤ i →
        (zeros 24).getD i 0#8 = (zeros 5 ++ [0xff#8] ++ zeros 18).getD i 0#8 := by decide
    exact this i h hi
  · rw [List.getD_eq_default _ _ (by simpa using h),
      List.getD_eq_default _ _ (by simp; omega)]

theorem witness_CommandBoundaries :
    (0#8 ∉ List.replicate 12 0x61#8 ∧ (List.replicate 12 0x61#8).length = 12) ∧
    (0#8 ∉ List.replicate 11 0x61#8 ∧
      (List.replicate 11 0x61#8).length + 1 + ([] : Bytes).length = 12 ∧
      (16#32).toNat ≤ exs.maxMessageSize.toNat) ∧
    (0#8 ∉ ([] : Bytes) ∧
      ([] : Bytes).length + 1 + (List.replicate 11 0xff#8).length = 12) := by decide

theorem witness_SizeBoundIsExact :
    ((block 16#32).length = 24 ∧ (block 16#32).take 4 = wle32 exs.magic ∧
      0#8 ∈ ((block 16#32).drop 4).take 12 ∧
      (le32 (block 16#32) 16).toNat ≤ exs.maxMessageSize.toNat) ∧
    (block 17#32).length = 24 ∧ (block 17#32).take 4 = wle32 exs.magic ∧
      0#8 ∈ ((block 17#32).drop 4).take 12 ∧
      (le32 (block 17#32) 16).toNat > exs.maxMessageSize.toNat := by
  refine ⟨⟨rfl, rfl, ?_, ?_⟩, rfl, rfl, ?_, ?_⟩ <;> simp [block, ofHex, zeros, List.replicate] <;>
    decide

/-! ## PROC_HDR and PROC_PAY -/

theorem witness_ProcHdrResult : (feeding ex none 24#32).Feeding ex [] ∧
    (feeding ex none 24#32).parser.hdr = none ∧ fVerack.length = 24 ∧ fullBlock.length = 24 ∧
    (zeros 24).length = 24 ∧ (block 0xFFFFFFFF#32).length = 24 :=
  ⟨⟨rfl, rfl⟩, rfl, rfl, rfl, rfl, rfl⟩

theorem witness_ProcPayResult :
    ((feeding ex (some (hPing 0#32)) 0#32).Feeding ex [] ∧
      (feeding ex (some (hPing 0#32)) 0#32).parser.hdr = some (hPing 0#32) ∧
      ([] : Bytes).length = (hPing 0#32).size.toNat) ∧
    (feeding ex (some (hPing 24#32)) 24#32).parser.hdr = some (hPing 24#32) ∧
    (zeros 24).length = (hPing 24#32).size.toNat := ⟨⟨⟨rfl, rfl⟩, rfl, rfl⟩, rfl, rfl⟩

theorem witness_HeaderLivesUntilItsPayload :
    waiting.parser.hdr = some (hPing 4#32) ∧ (∃ t, exec .status waiting = .next t) ∧
    (∃ t, exec (.feed [0x04#8]) waiting = .next t) ∧ (∃ t, exec (.feed []) waiting = .next t) :=
  ⟨rfl, ⟨_, rfl⟩, ⟨_, rfl⟩, _, rfl⟩

/-! ## FEED -/

theorem witness_FeedIsSideEffectComplete :
    ((idle ex).Ready ex ∧ (idle ex).Inv) ∧ waiting.Ready ex ∧ waiting.Inv :=
  ⟨⟨idle_ready ex, idle_inv ex⟩, ⟨rfl, rfl⟩, waiting_inv⟩

theorem witness_FeedRunsTheDrainLoop :
    ((idle ex).Ready ex ∧ (idle ex).Inv) ∧ waiting.Ready ex ∧ waiting.Inv :=
  ⟨⟨idle_ready ex, idle_inv ex⟩, ⟨rfl, rfl⟩, waiting_inv⟩

theorem witness_FeedIsItsMicroSteps :
    ((idle ex).Ready ex ∧ (idle ex).Inv) ∧ waiting.Ready ex ∧ waiting.Inv :=
  ⟨⟨idle_ready ex, idle_inv ex⟩, ⟨rfl, rfl⟩, waiting_inv⟩

/-- 23 bytes of a header, and the empty chunk one byte below a complete payload. -/
theorem witness_PartialFeed : (idle ex).Ready ex ∧
    (idle ex).parser.total + (zeros 23).length < (idle ex).parser.awaiting.toNat ∧
    waiting.Ready ex ∧
    waiting.parser.total + ([] : Bytes).length < waiting.parser.awaiting.toNat ∧ waiting.Inv :=
  ⟨idle_ready ex, by decide, ⟨rfl, rfl⟩, by decide, waiting_inv⟩

theorem witness_FragmentationInvariance :
    ((idle ex).Ready ex ∧ (idle ex).Inv) ∧ waiting.Ready ex ∧ waiting.Inv :=
  ⟨⟨idle_ready ex, idle_inv ex⟩, ⟨rfl, rfl⟩, waiting_inv⟩

theorem witness_ByteSerialAbsorption :
    ((idle ex).Ready ex ∧ (idle ex).Inv) ∧ waiting.Ready ex ∧ waiting.Inv :=
  ⟨⟨idle_ready ex, idle_inv ex⟩, ⟨rfl, rfl⟩, waiting_inv⟩

/-- The same three bytes, in one chunk and in two. -/
theorem witness_ChunkPartitionIsHidden :
    waiting.SameButChunks { waiting with
      parser := { waiting.parser with chunks := [zeros 1, [], zeros 2] } } ∧
    ∃ s' t', exec (.feed [0x04#8]) waiting = .next s' ∧
      exec (.feed [0x04#8]) { waiting with
        parser := { waiting.parser with chunks := [zeros 1, [], zeros 2] } } = .next t' :=
  ⟨⟨rfl, by decide, rfl, rfl, rfl, rfl⟩, _, _, rfl, rfl⟩

theorem witness_HeaderErrorResynchronises :
    (idle exs).Ready exs ∧ (idle exs).parser.Fresh ∧
    ((zeros 24).length = 24 ∧ (classifyHeader exs (zeros 24)).error = some .invalidMagic) ∧
    (fullBlock.length = 24 ∧ (classifyHeader exs fullBlock).error = some .malformedCommand) ∧
    ((block 17#32).length = 24 ∧
      (classifyHeader exs (block 17#32)).error = some .oversizedMessage) :=
  ⟨idle_ready exs, idle_fresh exs, ⟨rfl, by decide +kernel⟩, ⟨rfl, by decide +kernel⟩,
    rfl, by decide +kernel⟩

theorem witness_ValidFrameGivesOneEvent :
    (idle ex).Ready ex ∧ (idle ex).parser.Fresh ∧
    (∀ n ∈ [0, 1, 24], ∃ h, (block (BitVec.ofNat 32 n)).length = 24 ∧
      classifyHeader ex (block (BitVec.ofNat 32 n)) = .valid h ∧
      (zeros n).length = h.size.toNat) := by
  refine ⟨idle_ready ex, idle_fresh ex, ?_⟩
  intro n h
  refine ⟨hPing (BitVec.ofNat 32 n), rfl, ?_, ?_⟩
  · revert n
    decide +kernel
  · revert n
    decide +kernel

theorem witness_PayloadOfTwentyFourBytes :
    (idle ex).Ready ex ∧ (idle ex).parser.Fresh ∧ (block 24#32).length = 24 ∧
    classifyHeader ex (block 24#32) = .valid (hPing 24#32) ∧ (hPing 24#32).size = 24#32 ∧
    (zeros 24).length = 24 :=
  ⟨idle_ready ex, idle_fresh ex, rfl, by decide +kernel, rfl, rfl⟩

/-- An empty command with a payload of the maximum size, and 11 bytes with no payload. -/
theorem witness_TwoFramesInOneChunk :
    (idle exs).Ready exs ∧ (idle exs).parser.Fresh ∧
    (([] : Bytes).length ≤ 11 ∧ 0#8 ∉ ([] : Bytes) ∧
      (zeros 16).length ≤ exs.maxMessageSize.toNat) ∧
    (List.replicate 11 0x61#8).length ≤ 11 ∧ 0#8 ∉ List.replicate 11 0x61#8 ∧
    ([] : Bytes).length ≤ exs.maxMessageSize.toNat :=
  ⟨idle_ready exs, idle_fresh exs, ⟨by decide, by decide, by decide⟩,
    by decide, by decide, by decide⟩

theorem witness_AlteredPayloadThenRecovery :
    (idle ex).Ready ex ∧ (idle ex).parser.Fresh ∧
    (ofHex [0x70, 0x69, 0x6e, 0x67]).length ≤ 11 ∧ 0#8 ∉ ofHex [0x70, 0x69, 0x6e, 0x67] ∧
    (ofHex [1, 2, 3, 4]).length ≤ ex.maxMessageSize.toNat ∧
    (ofHex [0, 2, 3, 4]).length = (ofHex [1, 2, 3, 4]).length ∧
    le32 (exc.hash256 (ofHex [0, 2, 3, 4])).toList 0
      ≠ le32 (exc.hash256 (ofHex [1, 2, 3, 4])).toList 0 ∧
    ([] : Bytes).length ≤ ex.maxMessageSize.toNat :=
  ⟨idle_ready ex, idle_fresh ex, by decide, by decide, by decide, rfl, by decide +kernel, by decide⟩

/-! ## Framer -/

theorem witness_FrameResult : (idle ex).cfg = some ex ∧ (feeding exs none 24#32).cfg = some exs :=
  ⟨rfl, rfl⟩

theorem witness_FrameCkResult : (idle ex).cfg = some ex ∧ (feeding exs none 24#32).cfg = some exs :=
  ⟨rfl, rfl⟩

theorem witness_ChecksumBytesAreDigestBytes : ∃ t f,
    exec (.frame [] []) (idle ex) = .next t ∧ t.result = some (.frame f) := ⟨_, _, rfl, rfl⟩

theorem witness_LoopbackRoundTrip :
    (idle exs).Ready exs ∧ (idle exs).parser.Fresh ∧
    (List.replicate 11 0x61#8).length ≤ 11 ∧ 0#8 ∉ List.replicate 11 0x61#8 ∧
    (zeros 16).length ≤ exs.maxMessageSize.toNat :=
  ⟨idle_ready exs, idle_fresh exs, by decide, by decide, by decide⟩

theorem witness_TwelveByteCommandDoesNotParse :
    (idle exs).Ready exs ∧ (idle exs).parser.Fresh ∧ (List.replicate 12 0x61#8).length = 12 ∧
    0#8 ∉ List.replicate 12 0x61#8 ∧ (zeros 16).length ≤ exs.maxMessageSize.toNat :=
  ⟨idle_ready exs, idle_fresh exs, by decide, by decide, by decide⟩

/-- The first 0x00 at the front and at the last of 12 bytes. -/
theorem witness_CommandCutAtFirstNul :
    (idle exs).Ready exs ∧ (idle exs).parser.Fresh ∧
    (0#8 ∉ List.replicate 11 0x61#8 ∧
      (List.replicate 11 0x61#8).length + 1 + ([] : Bytes).length ≤ 12) ∧
    (0#8 ∉ ([] : Bytes) ∧ ([] : Bytes).length + 1 + (List.replicate 11 0x61#8).length ≤ 12) ∧
    (zeros 16).length ≤ exs.maxMessageSize.toNat :=
  ⟨idle_ready exs, idle_fresh exs, ⟨by decide, by decide⟩, ⟨by decide, by decide⟩, by decide⟩

theorem witness_FrameOfAnotherProfile :
    (idle exs).Ready exs ∧ (idle exs).parser.Fresh ∧ (List.replicate 11 0x61#8).length ≤ 11 ∧
    (zeros 17).length < 2 ^ 32 ∧ exs.maxMessageSize.toNat < (zeros 17).length ∧
    ({ exs with magic := 0xD9B4BEF8#32 } : Profile).magic ≠ exs.magic :=
  ⟨idle_ready exs, idle_fresh exs, by decide, by decide, by decide, by decide⟩

theorem witness_WrongSuppliedChecksum :
    (idle exs).Ready exs ∧ (idle exs).parser.Fresh ∧ (List.replicate 11 0x61#8).length ≤ 11 ∧
    0#8 ∉ List.replicate 11 0x61#8 ∧ (zeros 16).length ≤ exs.maxMessageSize.toNat ∧
    le32 (Config.hash256 (zeros 16)).toList 0 + 1#32 ≠ le32 (Config.hash256 (zeros 16)).toList 0 := by
  refine ⟨idle_ready exs, idle_fresh exs, by decide, by decide, by decide, ?_⟩
  generalize le32 (Config.hash256 (zeros 16)).toList 0 = k
  bv_omega

theorem witness_LoopbackOfAnError :
    (idle exs).cfg = some exs ∧ 12 < (zeros 13).length ∧
    exs.maxMessageSize.toNat < (zeros 17).length := ⟨rfl, by decide, by decide⟩

/-! ## Invariants and whole-machine rules -/

/-- A step between operations, and one inside a FEED. -/
theorem witness_StepKeepsTheInvariant :
    (∃ t, (calling .sequential [0x02#8]).Inv ∧ step (calling .sequential [0x02#8]) = .next t) ∧
    ∃ t, (feeding ex (some (hPing 0#32)) 0#32).Inv ∧
      step (feeding ex (some (hPing 0#32)) 0#32) = .next t := by
  refine ⟨⟨_, ⟨rfl, fun _ => rfl, fun _ h => (by cases h), fun _ h => (by cases h)⟩, rfl⟩,
    _, ⟨by decide, fun h => (by cases h), fun _ h => ?_, fun _ h => (by cases h)⟩, rfl⟩
  cases h
  exact ⟨by decide, rfl⟩

theorem witness_RestingParserBounds :
    ((idle ex).Ready ex ∧ (idle ex).Inv ∧ (idle ex).parser.phase = .awaitingHeader) ∧
    waiting.Ready ex ∧ waiting.Inv ∧ waiting.parser.phase = .awaitingPayload :=
  ⟨⟨idle_ready ex, idle_inv ex, rfl⟩, ⟨rfl, rfl⟩, waiting_inv, rfl⟩

theorem witness_OnlyResetChangesTheProfile : ∃ t,
    step (calling .sequential (0x00#8 :: zeros 8)) = .next t ∧
    t.cfg ≠ (calling .sequential (0x00#8 :: zeros 8)).cfg := ⟨_, rfl, by decide⟩

theorem witness_FifoReachedOnlyAtItsEnds :
    (∃ t, exec (.feed [0x04#8]) waiting = .next t) ∧
    (∃ t, exec (.reset 0#32 0#32) waiting = .next t) ∧
    ∃ t, exec (.procPay []) (feeding ex (some (hPing 0#32)) 0#32) = .next t :=
  ⟨⟨_, rfl⟩, ⟨_, rfl⟩, _, rfl⟩

theorem witness_SequentialProgramsAreSafe :
    ({ idle ex with pending := programCalls [.status, .feed [0xf9#8]] } : State).Ready ex ∧
    (idle ex).refusedMark = false ∧
    ∀ i ∈ [Instr.status, .feed [0xf9#8]], i.wellFormed = true ∧ i.isHostOp = true :=
  ⟨⟨rfl, rfl⟩, rfl, by decide⟩

/-- STATUS between operations, a micro-step inside a FEED, and a RESET to another profile. -/
theorem witness_FramerOperationsInterleave :
    (Instr.frame [] []).isFramerOp = true ∧ (Instr.frameCk [] [] 0#32).isFramerOp = true ∧
    (waiting.cfg = some ex ∧ Instr.status.isHostOp = true ∧ ∃ t, exec .status waiting = .next t) ∧
    ((feeding ex (some (hPing 0#32)) 0#32).cfg = some ex ∧ (Instr.procPay []).isHostOp = false ∧
      ∃ t, exec (.procPay []) (feeding ex (some (hPing 0#32)) 0#32) = .next t) ∧
    (∃ t, exec (.reset 0#32 0#32) waiting = .next t) ∧
    ∀ magic max, Instr.status = .reset magic max → False :=
  ⟨rfl, rfl, ⟨rfl, rfl, _, rfl⟩, ⟨rfl, rfl, _, rfl⟩, ⟨_, rfl⟩, fun _ _ => Instr.noConfusion⟩

/-- A refused call of instance 0 sets its mark and not that of instance 1 (log 23). -/
theorem test_instances_marks :
    ((Instances.stepAt 0 [calling .sequential [0x03#8], idle exs]).map
      fun ys => (ys.map State.refusedMark, ys.refusedMark)) = some ([true, false], true) := by decide

theorem witness_FeedSplitPieces :
    1 ≤ 1 ∧ [0x01#8, 0x02#8] ∈ pieces 2 [0x01#8, 0x02#8, 0x03#8] ∧
    [0x01#8, 0x02#8] ∈ (pieces 2 [0x01#8, 0x02#8, 0x03#8]).dropLast := by decide

end Sys2Proof.Tests
end

/-! ## Little-endian words (R12, R53) -/

namespace Sys2Proof

/-- The four bytes that `wle32` writes are read back by `le32` (R12). -/
@[simp] theorem le32_wle32 (v : U32) : le32 (wle32 v) 0 = v := by
  apply BitVec.eq_of_toNat_eq
  rw [le32_toNat]
  simp only [wle32, byteAt, List.getD_cons_zero, List.getD_cons_succ, BitVec.extractLsb'_toNat,
    Nat.shiftRight_eq_div_pow]
  have hv := v.isLt
  omega

/-- The four bytes that `le32` reads are written back by `wle32` (R12). -/
theorem wle32_le32_cons (b₀ b₁ b₂ b₃ : Byte) (rest : Bytes) :
    wle32 (le32 (b₀ :: b₁ :: b₂ :: b₃ :: rest) 0) = [b₀, b₁, b₂, b₃] := by
  have h₀ := b₀.isLt
  have h₁ := b₁.isLt
  have h₂ := b₂.isLt
  have h₃ := b₃.isLt
  simp only [wle32, List.cons.injEq, and_true]
  refine ⟨?_, ?_, ?_, ?_⟩ <;> apply BitVec.eq_of_toNat_eq <;>
    simp only [BitVec.extractLsb'_toNat, Nat.shiftRight_eq_div_pow, le32_toNat, byteAt,
      List.getD_cons_zero, List.getD_cons_succ] <;>
    omega

/-- `wle32` of `le32` at the front of four bytes or more is the front four bytes (R53). -/
theorem wle32_le32 {b : Bytes} (h : 4 ≤ b.length) : wle32 (le32 b 0) = b.take 4 := by
  match b, h with
  | b₀ :: b₁ :: b₂ :: b₃ :: rest, _ => exact wle32_le32_cons b₀ b₁ b₂ b₃ rest

end Sys2Proof

/-! ## A step between operations (R7, R81, R176) -/

namespace Sys2Proof.Machine

/-- With no FEED running and no call pending, the FPB holds its state (R176). -/
theorem step_of_no_call {s : State} (hf : s.inFeed = none) (hp : s.pending = []) :
    step s = .next s := by
  simp [step, fetch, hf, hp]

/-- A call that may be issued runs the operation its descriptor holds, with the call taken from the
queue (R81, R166). -/
theorem step_of_call {s : State} {call : HostCall} {calls : List HostCall} {i : Instr}
    (hf : s.inFeed = none) (hp : s.pending = call :: calls)
    (hd : decodeDescriptor call.descriptor = some i) (hi : issueRefused call.issue i = false) :
    step s = exec i (s.setPending calls) := by
  simp [step, fetch, fetchCall, hf, hp, hd, hi]

/-! ## The Parser's invariant along the drain loop (R25 to R27, R33) -/

/-- The terminator is a field byte, and no byte before it is 0x00 (R16). -/
theorem firstNul_eq_some {b : Bytes} {off n k : Nat} (h : firstNul b off n = some k) :
    k < n ∧ ∀ j < k, byteAt b (off + j) ≠ 0#8 := by
  obtain ⟨-, hk, hlt⟩ := List.find?_range_eq_some.mp h
  exact ⟨List.mem_range.mp hk, fun j hj => by simpa using hlt j hj⟩

/-- A command cut at the terminator holds no 0x00 (R29, R73). -/
theorem blockCmd_ne_zero {b : Bytes} {k : Nat} (h : blockTerminator b = some k) :
    ∀ x ∈ blockCmd b k, x ≠ 0#8 := by
  intro x hx
  obtain ⟨j, hj, rfl⟩ := List.mem_iff_getElem.mp hx
  have hj' : j < k ∧ cmdOffset + j < b.length := by
    simp [blockCmd, memRead] at hj
    omega
  have hne := (firstNul_eq_some h).2 j hj'.1
  simpa [byteAt, blockCmd, memRead, List.getElem?_eq_getElem hj'.2] using hne

/-- What a valid header block holds (R78, R79). -/
theorem classifyHeader_eq_valid {cfg : Profile} {b : Bytes} {h : Header}
    (hv : classifyHeader cfg b = .valid h) : ∃ k, blockTerminator b = some k ∧
      exceedsMax cfg (blockSize b).toNat = false ∧
      h = { cmd := blockCmd b k, size := blockSize b, checksum := blockChecksum b } := by
  unfold classifyHeader at hv
  split at hv
  · cases hv
  · split at hv
    · cases hv
    · split at hv
      · cases hv
      · exact ⟨_, ‹_›, by simpa using ‹¬exceedsMax _ _ = true›, by simpa using hv.symm⟩

/-- A valid header block gives a legal Header (R26, R29). -/
theorem Header.legal_of_valid {cfg : Profile} {b : Bytes} {h : Header}
    (hv : classifyHeader cfg b = .valid h) : h.legal (some cfg) = true := by
  obtain ⟨k, hk, hmax, rfl⟩ := classifyHeader_eq_valid hv
  have hk12 : k < 12 := (firstNul_eq_some hk).1
  have hlen : (blockCmd b k).length ≤ 11 := by
    simp [blockCmd, memRead]
    omega
  have hne := blockCmd_ne_zero hk
  simpa [Header.legal, hmax, hlen] using hne

theorem ParserState.legal_iff_of_none {p : ParserState} (cfg : Option Profile)
    (h : p.hdr = none) :
    p.legal cfg = true ↔ p.total = p.buf.length ∧ p.awaiting = 24#32 := by
  simp [ParserState.legal, h]

theorem ParserState.legal_iff_of_some {p : ParserState} {h : Header} (cfg : Option Profile)
    (hh : p.hdr = some h) :
    p.legal cfg = true ↔ p.total = p.buf.length ∧ p.awaiting = h.size ∧ h.legal cfg = true := by
  simp [ParserState.legal, hh]

/-- The count of a legal Parser state (R25). -/
theorem ParserState.total_eq_of_legal {p : ParserState} {cfg : Option Profile}
    (hl : p.legal cfg = true) : p.total = p.buf.length := by
  simp only [ParserState.legal, Bool.and_eq_true, decide_eq_true_eq] at hl
  exact hl.1

/-- The invariant reads `total`, `buf`, `awaiting` and `hdr` only: a change of the queue that keeps
`total = |buf|` keeps it. -/
theorem ParserState.legal_of_queue {p q : ParserState} {cfg : Option Profile}
    (hl : p.legal cfg = true) (ha : q.awaiting = p.awaiting) (hh : q.hdr = p.hdr)
    (ht : q.total = q.buf.length) : q.legal cfg = true := by
  simp only [ParserState.legal, Bool.and_eq_true, decide_eq_true_eq] at hl ⊢
  rw [ha, hh]
  exact ⟨ht, hl.2⟩

theorem ParserState.append_legal {p : ParserState} {cfg : Option Profile} (chunk : Bytes)
    (hl : p.legal cfg = true) : (p.append chunk).legal cfg = true :=
  ParserState.legal_of_queue hl rfl rfl (by simp [ParserState.total_eq_of_legal hl])

theorem ParserState.extract_legal {p : ParserState} {cfg : Option Profile} (n : Nat)
    (hl : p.legal cfg = true) : (p.extract n).2.legal cfg = true :=
  ParserState.legal_of_queue hl rfl rfl (by simp [ParserState.total_eq_of_legal hl])

theorem ParserState.toAwaitingHeader_legal {p : ParserState} {cfg : Option Profile}
    (hl : p.legal cfg = true) : p.toAwaitingHeader.legal cfg = true := by
  simpa [ParserState.legal_iff_of_none cfg p.toAwaitingHeader_hdr]
    using ParserState.total_eq_of_legal hl

theorem ParserState.toAwaitingPayload_legal {p : ParserState} {cfg : Option Profile} {h : Header}
    (hl : p.legal cfg = true) (hh : h.legal cfg = true) :
    (p.toAwaitingPayload h).legal cfg = true := by
  simpa [ParserState.legal_iff_of_some cfg (p.toAwaitingPayload_hdr h), hh]
    using ParserState.total_eq_of_legal hl

/-- EXTRACT takes a block of exactly `awaiting` bytes when a unit is complete (R102). -/
theorem ParserState.extract_block_length {p : ParserState} {cfg : Option Profile}
    (hl : p.legal cfg = true) (hu : p.unitComplete = true) :
    (p.extract p.awaiting.toNat).1.length = p.awaiting.toNat := by
  have hle : p.awaiting.toNat ≤ p.buf.length :=
    ParserState.total_eq_of_legal hl ▸ p.unitComplete_iff.mp hu
  simpa using hle

/-- Everything PROCESS can do to the Parser state: it is back in AwaitingHeader, or a valid header
block has started its payload (R120, R121, R127). -/
theorem processBlock_parser_cases (X : External) (cfg : Profile) (b : Bytes) (r : Run) :
    (processBlock X cfg b r).parser = r.parser.toAwaitingHeader ∨
    ∃ h, r.parser.hdr = none ∧ classifyHeader cfg b = .valid h ∧
      (processBlock X cfg b r).parser = r.parser.toAwaitingPayload h := by
  cases hh : r.parser.hdr with
  | some h => left; rw [processBlock_of_some X cfg b hh, procPay_eq]
  | none =>
    rw [processBlock_of_none X cfg b hh]
    obtain ⟨k, -, hk⟩ | ⟨h, hv, hk⟩ := procHdr_cases cfg b r
    · left; rw [hk, Run.raise_parser]
    · right; exact ⟨h, rfl, hv, by rw [hk]⟩

theorem processBlock_legal (X : External) {cfg : Profile} (b : Bytes) {r : Run}
    (hl : r.parser.legal (some cfg) = true) :
    (processBlock X cfg b r).parser.legal (some cfg) = true := by
  obtain hp | ⟨h, -, hv, hp⟩ := processBlock_parser_cases X cfg b r
  · rw [hp]; exact ParserState.toAwaitingHeader_legal hl
  · rw [hp]; exact ParserState.toAwaitingPayload_legal hl (Header.legal_of_valid hv)

theorem drainOnce_legal (X : External) {cfg : Profile} {r : Run}
    (hl : r.parser.legal (some cfg) = true) :
    (drainOnce X cfg r).parser.legal (some cfg) = true :=
  processBlock_legal X _ (ParserState.extract_legal _ hl)

/-! ## The drain loop ends by its own test (R103) -/

/-- What every iteration of the drain loop lowers: an iteration in AwaitingHeader takes 24 bytes, one
in AwaitingPayload may take none but leaves the phase. -/
def ParserState.work (p : ParserState) : Nat := 2 * p.total + p.phase.bit.toNat

theorem ParserState.phase_bit_of_none {p : ParserState} (h : p.hdr = none) :
    p.phase.bit = false := by simp [ParserState.phase, Phase.bit, h]

theorem ParserState.phase_bit_of_some {p : ParserState} {h : Header} (hh : p.hdr = some h) :
    p.phase.bit = true := by simp [ParserState.phase, Phase.bit, hh]

theorem ParserState.work_lt_drainFuel (p : ParserState) : p.work < drainFuel p.total := by
  have := p.phase.bit.toNat_le
  simp only [ParserState.work, drainFuel]
  omega

/-- In AwaitingHeader a complete unit has 24 bytes (R26). -/
theorem ParserState.total_ge_of_header_complete {p : ParserState} {cfg : Option Profile}
    (hl : p.legal cfg = true) (hu : p.unitComplete = true) (hh : p.hdr = none) :
    p.awaiting.toNat = 24 ∧ 24 ≤ p.total := by
  have ha : p.awaiting = 24#32 := ((ParserState.legal_iff_of_none cfg hh).mp hl).2
  have hle := p.unitComplete_iff.mp hu
  simpa [ha] using hle

/-- PROCESS takes no byte from the queue (R120). -/
theorem processBlock_total (X : External) (cfg : Profile) (b : Bytes) (r : Run) :
    (processBlock X cfg b r).parser.total = r.parser.total := by
  obtain hp | ⟨h, -, -, hp⟩ := processBlock_parser_cases X cfg b r
  · rw [hp, ParserState.toAwaitingHeader_total]
  · rw [hp, ParserState.toAwaitingPayload_total]

/-- An iteration takes exactly `awaiting` bytes (R101). -/
theorem drainOnce_total (X : External) (cfg : Profile) (r : Run) :
    (drainOnce X cfg r).parser.total = r.parser.total - r.parser.awaiting.toNat := by
  rw [drainOnce, processBlock_total, ParserState.extract_total]

/-- An iteration in AwaitingPayload ends in AwaitingHeader (R127). -/
theorem drainOnce_hdr_of_some (X : External) (cfg : Profile) {r : Run} {h : Header}
    (hh : r.parser.hdr = some h) : (drainOnce X cfg r).parser.hdr = none := by
  rw [drainOnce, processBlock_of_some X cfg _ (h := h) (by simpa using hh), procPay_eq,
    ParserState.toAwaitingHeader_hdr]

/-- Each iteration lowers the work that is left (R103). -/
theorem drainOnce_work_lt (X : External) {cfg : Profile} {r : Run}
    (hl : r.parser.legal (some cfg) = true) (hu : r.parser.unitComplete = true) :
    (drainOnce X cfg r).parser.work < r.parser.work := by
  have ht := drainOnce_total X cfg r
  cases hh : r.parser.hdr with
  | none =>
    have hbit := (drainOnce X cfg r).parser.phase.bit.toNat_le
    obtain ⟨ha, hle⟩ := ParserState.total_ge_of_header_complete hl hu hh
    simp only [ParserState.work]
    omega
  | some h =>
    simp only [ParserState.work, ht, ParserState.phase_bit_of_some hh,
      ParserState.phase_bit_of_none (drainOnce_hdr_of_some X cfg hh), Bool.toNat_true,
      Bool.toNat_false]
    omega

/-! ## The micro-steps of a FEED (R84, R101) -/

/-- Inside a FEED with no complete unit, a step returns the event list (R101). -/
theorem step_of_incomplete {s : State} {events : List Event} (hf : s.inFeed = some events)
    (hu : s.parser.unitComplete = false) :
    step s = .next (s.returnsRun { parser := s.parser, events := events }) := by
  simp [step, fetch, fetchMicro, hf, hu]

/-- Inside a FEED with a complete unit, a step runs the micro-step the phase selects on the block
EXTRACT takes (R84, R120). -/
theorem step_of_complete {s : State} {events : List Event} (hf : s.inFeed = some events)
    (hu : s.parser.unitComplete = true) :
    step s = exec (decodeMicro s.parser.phase.bit (s.parser.extract s.parser.awaiting.toNat).1)
      (s.setParser (s.parser.extract s.parser.awaiting.toNat).2) := by
  simp [step, fetch, fetchMicro, hf, hu]

/-- PROC_HDR inside a FEED in AwaitingHeader (R121). -/
theorem exec_procHdr_of_feeding {s : State} {cfg : Profile} {events : List Event} {b : Bytes}
    (hf : s.Feeding cfg events) (hh : s.parser.hdr = none) (hb : b.length = 24) :
    exec (.procHdr b) s =
      .next (s.setRun (procHdr cfg b { parser := s.parser, events := events })) := by
  simp [exec, execProcHdr, whenInFeed_of_feeding hf, hh, hb, headerSize]

/-- PROC_PAY inside a FEED in AwaitingPayload (R124). -/
theorem exec_procPay_of_feeding {s : State} {cfg : Profile} {events : List Event} {b : Bytes}
    {h : Header} (hf : s.Feeding cfg events) (hh : s.parser.hdr = some h)
    (hb : b.length = h.size.toNat) :
    exec (.procPay b) s =
      .next (s.setRun (procPay Config.external h b { parser := s.parser, events := events })) := by
  simp [exec, execProcPay, procPayWith, whenInFeed_of_feeding hf, hh, hb]

/-- The micro-step that the phase selects is PROCESS, on a block of `awaiting` bytes (R84, R120). -/
theorem exec_decodeMicro {s : State} {cfg : Profile} {events : List Event} {b : Bytes}
    (hf : s.Feeding cfg events) (hl : s.parser.legal (some cfg) = true)
    (hb : b.length = s.parser.awaiting.toNat) :
    exec (decodeMicro s.parser.phase.bit b) s = .next (s.setRun
      (processBlock Config.external cfg b { parser := s.parser, events := events })) := by
  cases hh : s.parser.hdr with
  | none =>
    obtain ⟨-, ha⟩ := (ParserState.legal_iff_of_none _ hh).mp hl
    rw [ParserState.phase_bit_of_none hh, processBlock_of_none _ _ _ hh]
    exact exec_procHdr_of_feeding hf hh (by rw [hb, ha]; rfl)
  | some h =>
    obtain ⟨-, ha, -⟩ := (ParserState.legal_iff_of_some _ hh).mp hl
    rw [ParserState.phase_bit_of_some hh, processBlock_of_some _ _ _ hh]
    exact exec_procPay_of_feeding hf hh (by rw [hb, ha])

/-- A step inside a FEED with a complete unit is one iteration of the drain loop (R101). -/
theorem step_setRun_of_complete {s : State} {cfg : Profile} {r : Run} (hc : s.cfg = some cfg)
    (hl : r.parser.legal (some cfg) = true) (hu : r.parser.unitComplete = true) :
    step (s.setRun r) = .next (s.setRun (drainOnce Config.external cfg r)) := by
  rw [step_of_complete (State.setRun_inFeed s r) hu]
  exact exec_decodeMicro (s := (s.setRun r).setParser (r.parser.extract r.parser.awaiting.toNat).2)
    ⟨hc, rfl⟩ (ParserState.extract_legal _ hl) (ParserState.extract_block_length hl hu)

/-- A run goes on after a step that has a next state. -/
theorem run_succ_of_next (M : Host.Core) {s t : M.State} (h : M.step s = .next t) (n : Nat) :
    M.run (n + 1) s = M.run n t := by
  simp [Host.Core.run, h]

/-- The micro-steps from inside a FEED simulate the drain loop: with more fuel than work is left, they
reach the state in which the FEED returns the loop's result (R7, R84, R101). -/
theorem run_setRun_eq_drain {s : State} {cfg : Profile} (hc : s.cfg = some cfg) (fuel : Nat) :
    ∀ r : Run, r.parser.legal (some cfg) = true → r.parser.work < fuel →
      ∃ n, Host.Core.run Sys2Proof.core n (s.setRun r) =
        .next (s.returnsRun (drain Config.external cfg fuel r)) := by
  induction fuel with
  | zero => intro r _ hw; omega
  | succ fuel ih =>
    intro r hl hw
    cases hu : r.parser.unitComplete with
    | false =>
      rw [drain_of_incomplete _ _ _ hu]
      exact ⟨1, run_succ_of_next core (step_of_incomplete (State.setRun_inFeed s r) hu) 0⟩
    | true =>
      have hlt := drainOnce_work_lt Config.external hl hu
      obtain ⟨n, hn⟩ := ih _ (drainOnce_legal Config.external hl) (by omega)
      refine ⟨n + 1, ?_⟩
      rw [drain_of_complete _ _ _ hu, ← hn]
      exact run_succ_of_next core (step_setRun_of_complete hc hl hu) n

/-! ## The obligations of 00_scope.md -/

/-- Settles O32: the micro-steps from the state after the append simulate the drain loop, and the
fuel of the loop is more than the work that state holds. -/
theorem feedIsItsMicroSteps : Obligations.FeedIsItsMicroSteps := by
  intro s cfg chunk hr hi
  have hl : (s.parser.append chunk).legal (some cfg) = true :=
    hr.configured ▸ ParserState.append_legal chunk hi.parser
  obtain ⟨n, hn⟩ := run_setRun_eq_drain hr.configured (drainFuel (s.parser.append chunk).total)
    { parser := s.parser.append chunk, events := [] } hl (ParserState.work_lt_drainFuel _)
  exact ⟨n, _, feedWith_eq Config.external chunk hr, hn⟩

/-- Settles O21, from the two round trips of `le32` and `wle32`. -/
theorem littleEndianRoundTrip : Obligations.LittleEndianRoundTrip :=
  ⟨fun v rest => by rw [le32_append_left _ _ _ (wle32_length v).ge, le32_wle32],
    fun _ h => wle32_le32 h⟩

/-- Settles O12, from the two rules of a step between operations. -/
theorem stepRunsTheDecodedCall : Obligations.StepRunsTheDecodedCall :=
  fun _ hf => ⟨fun _ _ _ hp hd => step_of_call hf hp hd rfl, step_of_no_call hf⟩

end Sys2Proof.Machine

/-! ## What an operation can do, said once (R7) -/

namespace Sys2Proof.Machine

/-- An idle guard lets its operation run or refuses it (R166 item 3). -/
theorem whenIdle_eq_next {s t : State} {run : Host.Outcome State Fault Refusal}
    (h : whenIdle s run = .next t) : (s.inFeed = none ∧ run = .next t) ∨ t = s.refuse := by
  cases hf : s.inFeed with
  | none => rw [whenIdle_of_none hf] at h; exact .inl ⟨rfl, h⟩
  | some events => rw [whenIdle_of_some hf] at h; cases h; exact .inr rfl

/-- A configuration guard lets its operation run or refuses it (R166 item 1). -/
theorem whenConfigured_eq_next {s t : State} {run : Profile → Host.Outcome State Fault Refusal}
    (h : whenConfigured s run = .next t) :
    (∃ cfg, s.cfg = some cfg ∧ run cfg = .next t) ∨ t = s.refuse := by
  cases hc : s.cfg with
  | some cfg => rw [whenConfigured_of_some hc] at h; exact .inl ⟨cfg, rfl, h⟩
  | none => rw [whenConfigured_of_none hc] at h; cases h; exact .inr rfl

/-- A micro-step without a configuration is refused (R34, R84). -/
theorem whenInFeed_of_unconfigured {s : State} (h : s.cfg = none)
    (run : Profile → Run → Host.Outcome State Fault Refusal) :
    whenInFeed s run = .next s.refuse := by simp [whenInFeed, h, refuse]

/-- A micro-step runs inside a FEED, with its configuration and events, or is refused (R84). -/
theorem whenInFeed_eq_next {s t : State} {run : Profile → Run → Host.Outcome State Fault Refusal}
    (h : whenInFeed s run = .next t) :
    (∃ cfg events, s.Feeding cfg events ∧ run cfg { parser := s.parser, events := events } = .next t)
      ∨ t = s.refuse := by
  cases hc : s.cfg with
  | none => rw [whenInFeed_of_unconfigured hc] at h; cases h; exact .inr rfl
  | some cfg =>
    cases hf : s.inFeed with
    | none => rw [whenInFeed_of_idle hf] at h; cases h; exact .inr rfl
    | some events =>
      rw [whenInFeed_of_feeding ⟨hc, hf⟩] at h
      exact .inl ⟨cfg, events, ⟨hc, hf⟩, h⟩

/-- The next states of an operation: it is refused, or its guards hold and it has its own effect. -/
inductive ExecNext (s : State) : Instr → State → Prop where
  | refused (i : Instr) : ExecNext s i s.refuse
  | reset (magic max : U32) (idle : s.inFeed = none) :
      ExecNext s (.reset magic max) (((s.setCfg { magic := magic, maxMessageSize := max }).setParser
        ParserState.initial).returns .done)
  | feed {cfg : Profile} (chunk : Bytes) (ready : s.Ready cfg) :
      ExecNext s (.feed chunk) (s.returnsRun (feedRun Config.external cfg chunk s.parser))
  | status {cfg : Profile} (ready : s.Ready cfg) :
      ExecNext s .status (s.returns (.status (statusRecord cfg s.parser)))
  | frame {cfg : Profile} (cmd payload : Bytes) (configured : s.cfg = some cfg) :
      ExecNext s (.frame cmd payload) (s.returns
        (frameResult cfg cmd payload (payloadChecksum Config.external payload)))
  | frameCk {cfg : Profile} (cmd payload : Bytes) (ck : U32) (configured : s.cfg = some cfg) :
      ExecNext s (.frameCk cmd payload ck) (s.returns (frameResult cfg cmd payload ck))
  | procHdr {cfg : Profile} {events : List Event} (block : Bytes) (feeding : s.Feeding cfg events)
      (noHeader : s.parser.hdr = none) (length : block.length = headerSize) :
      ExecNext s (.procHdr block) (s.setRun (procHdr cfg block { parser := s.parser, events }))
  | procPay {cfg : Profile} {events : List Event} {h : Header} (block : Bytes)
      (feeding : s.Feeding cfg events) (header : s.parser.hdr = some h)
      (length : block.length = h.size.toNat) :
      ExecNext s (.procPay block)
        (s.setRun (procPay Config.external h block { parser := s.parser, events }))

/-- The inversion of `exec`: whatever an operation answers is one of its next states. -/
theorem exec_eq_next {i : Instr} {s t : State} (h : exec i s = .next t) : ExecNext s i t := by
  cases i with
  | reset magic max =>
    obtain ⟨hf, h⟩ | rfl := whenIdle_eq_next h
    · cases h; exact .reset magic max hf
    · exact .refused _
  | feed chunk =>
    obtain ⟨hf, h⟩ | rfl := whenIdle_eq_next h
    · obtain ⟨cfg, hc, h⟩ | rfl := whenConfigured_eq_next h
      · cases h; exact .feed chunk ⟨hc, hf⟩
      · exact .refused _
    · exact .refused _
  | status =>
    obtain ⟨hf, h⟩ | rfl := whenIdle_eq_next h
    · obtain ⟨cfg, hc, h⟩ | rfl := whenConfigured_eq_next h
      · cases h; exact .status ⟨hc, hf⟩
      · exact .refused _
    · exact .refused _
  | frame cmd payload =>
    obtain ⟨cfg, hc, h⟩ | rfl := whenConfigured_eq_next h
    · cases h; exact .frame cmd payload hc
    · exact .refused _
  | frameCk cmd payload ck =>
    obtain ⟨cfg, hc, h⟩ | rfl := whenConfigured_eq_next h
    · cases h; exact .frameCk cmd payload ck hc
    · exact .refused _
  | procHdr block =>
    rw [exec, execProcHdr] at h
    obtain ⟨cfg, events, hf, h⟩ | rfl := whenInFeed_eq_next h
    · split at h
      · split at h
        · cases h; exact .procHdr block hf ‹_› ‹_›
        · cases h; exact .refused _
      · cases h; exact .refused _
    · exact .refused _
  | procPay block =>
    rw [exec, execProcPay, procPayWith] at h
    obtain ⟨cfg, events, hf, h⟩ | rfl := whenInFeed_eq_next h
    · split at h
      · cases h; exact .refused _
      · split at h
        · cases h; exact .procPay block hf ‹_› ‹_›
        · cases h; exact .refused _
    · exact .refused _

/-! ## Legal events and results (R85 to R88) -/

/-- A payload's event is legal: a cause stands with PayloadDecodeError only (R86, R126). -/
theorem payloadEvent_legal (X : External) (cmd payload : Bytes) (ck : U32) :
    (payloadEvent X cmd payload ck).legal = true := by
  unfold payloadEvent codecEvent
  split
  · rfl
  · cases X.decode cmd payload <;> rfl

/-- The error event of a rejected header block is legal (R86, R161). -/
theorem HeaderClass.error_event_legal {c : HeaderClass} {k : ErrorKind} (h : c.error = some k) :
    (Event.error k none).legal = true := by
  cases c <;> cases h <;> rfl

/-- BUILD fills its buffer and does not change its length (R142). -/
theorem buildFrame_length (cfg : Profile) {cmd : Bytes} (payload : Bytes) (ck : U32)
    (h : cmd.length ≤ 12) :
    (buildFrame cfg cmd payload ck).length = headerSize + payload.length := by
  simp [buildFrame, memWrite, cmdField_length cmd h, headerSize, magicOffset, cmdOffset,
    cmdFieldSize, sizeOffset, checksumOffset, payloadOffset]
  omega

/-- A Framer result is a frame with a whole header or an error of kind 6 or 7 (R85, R88). -/
theorem frameResult_legal (cfg : Profile) (cmd payload : Bytes) (ck : U32) :
    (frameResult cfg cmd payload ck).legal = true := by
  unfold frameResult
  cases hk : frameChecks cfg cmd payload with
  | some k =>
    obtain ⟨-, rfl⟩ | ⟨-, -, rfl⟩ := frameChecks_eq_some hk <;> rfl
  | none =>
    obtain ⟨hcmd, -⟩ := (frameChecks_eq_none_iff cfg cmd payload).mp hk
    simp [Result.legal, buildFrame_length cfg payload ck hcmd]

/-! ## A running FEED keeps its Parser state and its events legal (R25 to R27, R33, R86) -/

/-- What the invariant says of a running FEED (R33). -/
structure Run.Legal (cfg : Profile) (r : Run) : Prop where
  parser : r.parser.legal (some cfg) = true
  events : r.events.all Event.legal = true

/-- PROCESS emits legal events only (R86). -/
theorem processBlock_events_legal (X : External) (cfg : Profile) (b : Bytes) {r : Run}
    (he : r.events.all Event.legal = true) :
    (processBlock X cfg b r).events.all Event.legal = true := by
  cases hh : r.parser.hdr with
  | some h =>
    rw [processBlock_of_some X cfg b hh, procPay_eq]
    simpa [payloadEvent_legal] using he
  | none =>
    rw [processBlock_of_none X cfg b hh]
    obtain ⟨k, hk, hp⟩ | ⟨h, -, hp⟩ := procHdr_cases cfg b r
    · rw [hp]
      simpa [HeaderClass.error_event_legal hk] using he
    · rw [hp]
      exact he

theorem Run.Legal.processBlock (X : External) {cfg : Profile} (b : Bytes) {r : Run}
    (h : r.Legal cfg) : (processBlock X cfg b r).Legal cfg :=
  ⟨processBlock_legal X b h.parser, processBlock_events_legal X cfg b h.events⟩

theorem Run.Legal.drainOnce (X : External) {cfg : Profile} {r : Run} (h : r.Legal cfg) :
    (drainOnce X cfg r).Legal cfg :=
  Run.Legal.processBlock X _ ⟨ParserState.extract_legal _ h.parser, h.events⟩

theorem Run.Legal.drain (X : External) {cfg : Profile} (fuel : Nat) {r : Run} (h : r.Legal cfg) :
    (drain X cfg fuel r).Legal cfg := by
  induction fuel generalizing r with
  | zero => exact h
  | succ fuel ih =>
    cases hu : r.parser.unitComplete with
    | false => rwa [drain_of_incomplete X cfg _ hu]
    | true => rw [drain_of_complete X cfg _ hu]; exact ih (h.drainOnce X)

/-- With more fuel than work is left, the drain loop ends with no complete unit (R103, R105). -/
theorem drain_unitComplete (X : External) {cfg : Profile} (fuel : Nat) {r : Run}
    (hl : r.parser.legal (some cfg) = true) (hw : r.parser.work < fuel) :
    (drain X cfg fuel r).parser.unitComplete = false := by
  induction fuel generalizing r with
  | zero => omega
  | succ fuel ih =>
    cases hu : r.parser.unitComplete with
    | false => rwa [drain_of_incomplete X cfg _ hu]
    | true =>
      have hlt := drainOnce_work_lt X hl hu
      rw [drain_of_complete X cfg _ hu]
      exact ih (drainOnce_legal X hl) (by omega)

theorem feedRun_legal (X : External) {cfg : Profile} (chunk : Bytes) {p : ParserState}
    (hl : p.legal (some cfg) = true) : (feedRun X cfg chunk p).Legal cfg :=
  Run.Legal.drain X _ ⟨ParserState.append_legal chunk hl, rfl⟩

/-- FEED leaves no complete unit in the FIFO (R32, R105). -/
theorem feedRun_unitComplete (X : External) {cfg : Profile} (chunk : Bytes) {p : ParserState}
    (hl : p.legal (some cfg) = true) : (feedRun X cfg chunk p).parser.unitComplete = false :=
  drain_unitComplete X _ (ParserState.append_legal chunk hl) (ParserState.work_lt_drainFuel _)

/-! ## The phase and the Header's bound (R26, R30) -/

theorem ParserState.phase_eq_awaitingHeader_iff {p : ParserState} :
    p.phase = .awaitingHeader ↔ p.hdr = none := by
  cases hh : p.hdr <;> simp [ParserState.phase, hh]

theorem ParserState.phase_eq_awaitingPayload_iff {p : ParserState} :
    p.phase = .awaitingPayload ↔ ∃ h, p.hdr = some h := by
  cases hh : p.hdr <;> simp [ParserState.phase, hh]

/-- The size of a legal Header is within the configuration's bound (R26). -/
theorem Header.size_le_of_legal {h : Header} {cfg : Profile} (hl : h.legal (some cfg) = true) :
    h.size.toNat ≤ cfg.maxMessageSize.toNat := by
  simp only [Header.legal, Bool.and_eq_true, Bool.not_eq_true'] at hl
  obtain ⟨-, hmax⟩ := hl
  simpa [exceedsMax] using hmax

/-! ## The invariant and the updates of the state (R32, R33) -/

/-- An idle state with the Parser at its RESET value meets the invariant (R35). -/
theorem State.inv_of_initial {s : State} (hp : s.parser = ParserState.initial)
    (hf : s.inFeed = none) (hr : ∀ v, s.result = some v → v.legal = true) : s.Inv where
  parser := by rw [hp]; rfl
  between _ := by rw [hp]; rfl
  inside _ he := by simp [hf] at he
  result := hr

theorem State.Inv.setPending {s : State} (h : s.Inv) (calls : List HostCall) :
    (s.setPending calls).Inv := ⟨h.parser, h.between, h.inside, h.result⟩

theorem State.Inv.refuse {s : State} (h : s.Inv) : s.refuse.Inv :=
  ⟨h.parser, h.between, h.inside, by simp⟩

theorem State.Inv.returns {s : State} (h : s.Inv) {v : Result} (hv : v.legal = true) :
    (s.returns v).Inv := ⟨h.parser, h.between, h.inside, by simpa using hv⟩

theorem State.Inv.setRun {s : State} {cfg : Profile} {r : Run} (h : s.Inv)
    (hc : s.cfg = some cfg) (hr : r.Legal cfg) : (s.setRun r).Inv where
  parser := by simpa [hc] using hr.parser
  between := by simp
  inside := by simpa [hc] using hr.events
  result := h.result

/-- A FEED may return when no complete unit is left (R101, R105). -/
theorem State.inv_returnsRun {s : State} {cfg : Profile} {r : Run} (hc : s.cfg = some cfg)
    (hr : r.Legal cfg) (hu : r.parser.unitComplete = false) : (s.returnsRun r).Inv where
  parser := by simpa [hc] using hr.parser
  between _ := hu
  inside := by simp
  result := by simpa [Result.legal] using hr.events

/-- A state inside a FEED that meets the invariant has a configuration (R33). -/
theorem State.Inv.feeding {s : State} {events : List Event} (h : s.Inv)
    (hf : s.inFeed = some events) : ∃ cfg, s.Feeding cfg events := by
  obtain ⟨cfg, hc⟩ := Option.ne_none_iff_exists'.mp (h.inside events hf).1
  exact ⟨cfg, hc, hf⟩

/-- The run inside a FEED of a state that meets the invariant is legal (R33). -/
theorem State.Inv.run_legal {s : State} {cfg : Profile} {events : List Event} (h : s.Inv)
    (hf : s.Feeding cfg events) : Run.Legal cfg { parser := s.parser, events := events } :=
  ⟨hf.configured ▸ h.parser, (h.inside events hf.running).2⟩

/-- EXTRACT inside a FEED keeps the invariant (R102). -/
theorem State.Inv.extract {s : State} {events : List Event} (h : s.Inv)
    (hf : s.inFeed = some events) (n : Nat) : (s.setParser (s.parser.extract n).2).Inv where
  parser := ParserState.extract_legal n h.parser
  between hn := by simp [hf] at hn
  inside := h.inside
  result := h.result

/-- Every operation keeps the invariant. -/
theorem State.Inv.exec {i : Instr} {s t : State} (hi : s.Inv) (h : exec i s = .next t) : t.Inv := by
  cases exec_eq_next h with
  | refused => exact hi.refuse
  | reset magic max hf => exact State.inv_of_initial rfl hf (by simp [Result.legal])
  | feed chunk hr =>
    have hl := hr.configured ▸ hi.parser
    exact State.inv_returnsRun hr.configured (feedRun_legal _ chunk hl)
      (feedRun_unitComplete _ chunk hl)
  | status => exact hi.returns rfl
  | frame => exact hi.returns (frameResult_legal ..)
  | frameCk => exact hi.returns (frameResult_legal ..)
  | procHdr block hf hh =>
    rw [← processBlock_of_none Config.external _ block (by exact hh)]
    exact hi.setRun hf.configured ((hi.run_legal hf).processBlock _ block)
  | procPay block hf hh =>
    rw [← processBlock_of_some Config.external _ block (by exact hh)]
    exact hi.setRun hf.configured ((hi.run_legal hf).processBlock _ block)

/-! ## Two Parser states with the same visible part (R24, R31) -/

theorem ParserState.visible_eq_iff {p q : ParserState} : p.visible = q.visible ↔
    p.buf = q.buf ∧ p.total = q.total ∧ p.awaiting = q.awaiting ∧ p.hdr = q.hdr := by
  simp [ParserState.visible]

section Visible

variable {p q : ParserState} (hv : p.visible = q.visible)
include hv

theorem ParserState.append_visible (chunk : Bytes) :
    (p.append chunk).visible = (q.append chunk).visible := by
  simpa [ParserState.visible_eq_iff] using ParserState.visible_eq_iff.mp hv

theorem ParserState.toAwaitingHeader_visible :
    p.toAwaitingHeader.visible = q.toAwaitingHeader.visible := by
  obtain ⟨hb, ht, -, -⟩ := ParserState.visible_eq_iff.mp hv
  simp [ParserState.visible_eq_iff, hb, ht]

theorem ParserState.toAwaitingPayload_visible (h : Header) :
    (p.toAwaitingPayload h).visible = (q.toAwaitingPayload h).visible := by
  obtain ⟨hb, ht, -, -⟩ := ParserState.visible_eq_iff.mp hv
  simp [ParserState.visible_eq_iff, hb, ht]

theorem ParserState.extract_visible (n : Nat) :
    (p.extract n).2.visible = (q.extract n).2.visible := by
  obtain ⟨hb, ht, ha, hh⟩ := ParserState.visible_eq_iff.mp hv
  simp [ParserState.visible_eq_iff, hb, ht, ha, hh]

theorem ParserState.unitComplete_of_visible : p.unitComplete = q.unitComplete := by
  obtain ⟨-, ht, ha, -⟩ := ParserState.visible_eq_iff.mp hv
  simp [ParserState.unitComplete, ht, ha]

theorem statusRecord_of_visible (cfg : Profile) : statusRecord cfg p = statusRecord cfg q := by
  obtain ⟨-, ht, ha, hh⟩ := ParserState.visible_eq_iff.mp hv
  simp [statusRecord, ParserState.phase, ht, ha, hh]

end Visible

/-! ## The chunk partition is hidden from a running FEED (R24, R31) -/

/-- Two runs of a FEED that differ at most in the hidden partition of the FIFO (R31). -/
structure Run.SameButChunks (r r' : Run) : Prop where
  parser : r.parser.visible = r'.parser.visible
  events : r.events = r'.events

theorem Run.SameButChunks.raise {r r' : Run} (h : r.SameButChunks r') (k : ErrorKind)
    (c : Option Cause) : (r.raise k c).SameButChunks (r'.raise k c) :=
  ⟨ParserState.toAwaitingHeader_visible h.parser, by simp [h.events]⟩

theorem Run.SameButChunks.procHdr {r r' : Run} (h : r.SameButChunks r') (cfg : Profile)
    (b : Bytes) : (procHdr cfg b r).SameButChunks (procHdr cfg b r') := by
  unfold Machine.procHdr
  cases classifyHeader cfg b with
  | invalidMagic => exact h.raise _ _
  | malformedCommand => exact h.raise _ _
  | oversizedMessage => exact h.raise _ _
  | valid hdr => exact ⟨ParserState.toAwaitingPayload_visible h.parser hdr, h.events⟩

theorem Run.SameButChunks.procPay {r r' : Run} (h : r.SameButChunks r') (X : External)
    (hdr : Header) (b : Bytes) : (procPay X hdr b r).SameButChunks (procPay X hdr b r') := by
  rw [procPay_eq, procPay_eq, h.events]
  exact ⟨ParserState.toAwaitingHeader_visible h.parser, rfl⟩

theorem Run.SameButChunks.processBlock {r r' : Run} (h : r.SameButChunks r') (X : External)
    (cfg : Profile) (b : Bytes) :
    (processBlock X cfg b r).SameButChunks (processBlock X cfg b r') := by
  obtain ⟨-, -, -, hh⟩ := ParserState.visible_eq_iff.mp h.parser
  cases hr : r.parser.hdr with
  | none =>
    rw [processBlock_of_none X cfg b hr, processBlock_of_none X cfg b (hh ▸ hr)]
    exact h.procHdr cfg b
  | some hdr =>
    rw [processBlock_of_some X cfg b hr, processBlock_of_some X cfg b (hh ▸ hr)]
    exact h.procPay X hdr b

theorem Run.SameButChunks.drainOnce {r r' : Run} (h : r.SameButChunks r') (X : External)
    (cfg : Profile) : (drainOnce X cfg r).SameButChunks (drainOnce X cfg r') := by
  obtain ⟨hb, -, ha, -⟩ := ParserState.visible_eq_iff.mp h.parser
  have hx : ({ r with parser := (r.parser.extract r.parser.awaiting.toNat).2 } : Run).SameButChunks
      { r' with parser := (r'.parser.extract r.parser.awaiting.toNat).2 } :=
    ⟨ParserState.extract_visible h.parser _, h.events⟩
  rw [Machine.drainOnce, Machine.drainOnce, ← ha, ParserState.extract_block,
    ParserState.extract_block, ← hb]
  exact hx.processBlock X cfg _

theorem Run.SameButChunks.drain {r r' : Run} (h : r.SameButChunks r') (X : External)
    (cfg : Profile) (fuel : Nat) : (drain X cfg fuel r).SameButChunks (drain X cfg fuel r') := by
  induction fuel generalizing r r' with
  | zero => exact h
  | succ fuel ih =>
    have hu := ParserState.unitComplete_of_visible h.parser
    cases hr : r.parser.unitComplete with
    | false => rwa [drain_of_incomplete X cfg _ hr, drain_of_incomplete X cfg _ (hu ▸ hr)]
    | true =>
      rw [drain_of_complete X cfg _ hr, drain_of_complete X cfg _ (hu ▸ hr)]
      exact ih (h.drainOnce X cfg)

theorem feedRun_sameButChunks {p q : ParserState} (hv : p.visible = q.visible) (X : External)
    (cfg : Profile) (chunk : Bytes) :
    (feedRun X cfg chunk p).SameButChunks (feedRun X cfg chunk q) := by
  obtain ⟨-, ht, -, -⟩ := ParserState.visible_eq_iff.mp hv
  have happ : Run.SameButChunks { parser := p.append chunk, events := [] }
      { parser := q.append chunk, events := [] } := ⟨ParserState.append_visible hv chunk, rfl⟩
  rw [feedRun, feedRun, ParserState.append_total, ParserState.append_total, ← ht]
  exact happ.drain X cfg _

/-! ## The chunk partition is hidden from every operation (R24, R31) -/

/-- Two outcomes whose next states differ at most in the hidden partition (R31). -/
def SameNext (x y : Host.Outcome State Fault Refusal) : Prop :=
  ∀ s' t', x = .next s' → y = .next t' → s'.SameButChunks t'

theorem State.SameButChunks.sameNext {s t : State} (h : s.SameButChunks t) :
    SameNext (.next s) (.next t) := by
  intro s' t' hs ht
  cases hs
  cases ht
  exact h

section SameButChunks

variable {s t : State} (h : s.SameButChunks t)
include h

theorem State.SameButChunks.hdr : s.parser.hdr = t.parser.hdr :=
  (ParserState.visible_eq_iff.mp h.parser).2.2.2

theorem State.SameButChunks.refuse : s.refuse.SameButChunks t.refuse :=
  ⟨h.cfg, h.parser, h.inFeed, rfl, rfl, h.pending⟩

theorem State.SameButChunks.returns (v : Result) : (s.returns v).SameButChunks (t.returns v) :=
  ⟨h.cfg, h.parser, h.inFeed, h.refusedMark, rfl, h.pending⟩

theorem State.SameButChunks.setCfg (cfg : Profile) : (s.setCfg cfg).SameButChunks (t.setCfg cfg) :=
  ⟨rfl, h.parser, h.inFeed, h.refusedMark, h.result, h.pending⟩

theorem State.SameButChunks.setParser (p : ParserState) :
    (s.setParser p).SameButChunks (t.setParser p) :=
  ⟨h.cfg, rfl, h.inFeed, h.refusedMark, h.result, h.pending⟩

theorem State.SameButChunks.setRun {r r' : Run} (hr : r.SameButChunks r') :
    (s.setRun r).SameButChunks (t.setRun r') :=
  ⟨h.cfg, hr.parser, congrArg some hr.events, h.refusedMark, h.result, h.pending⟩

theorem State.SameButChunks.returnsRun {r r' : Run} (hr : r.SameButChunks r') :
    (s.returnsRun r).SameButChunks (t.returnsRun r') :=
  ⟨h.cfg, hr.parser, rfl, h.refusedMark, by simp [hr.events], h.pending⟩

theorem State.SameButChunks.whenIdle {x y : Host.Outcome State Fault Refusal}
    (hxy : SameNext x y) : SameNext (whenIdle s x) (whenIdle t y) := by
  cases hf : s.inFeed with
  | none => rwa [whenIdle_of_none hf, whenIdle_of_none (h.inFeed ▸ hf)]
  | some events =>
    rw [whenIdle_of_some hf, whenIdle_of_some (h.inFeed ▸ hf)]
    exact h.refuse.sameNext

theorem State.SameButChunks.whenConfigured {x y : Profile → Host.Outcome State Fault Refusal}
    (hxy : ∀ cfg, SameNext (x cfg) (y cfg)) :
    SameNext (whenConfigured s x) (whenConfigured t y) := by
  cases hc : s.cfg with
  | some cfg => rw [whenConfigured_of_some hc, whenConfigured_of_some (h.cfg ▸ hc)]; exact hxy cfg
  | none =>
    rw [whenConfigured_of_none hc, whenConfigured_of_none (h.cfg ▸ hc)]
    exact h.refuse.sameNext

theorem State.SameButChunks.whenInFeed {x y : Profile → Run → Host.Outcome State Fault Refusal}
    (hxy : ∀ cfg r r', r.SameButChunks r' → SameNext (x cfg r) (y cfg r')) :
    SameNext (whenInFeed s x) (whenInFeed t y) := by
  cases hc : s.cfg with
  | none =>
    rw [whenInFeed_of_unconfigured hc, whenInFeed_of_unconfigured (h.cfg ▸ hc)]
    exact h.refuse.sameNext
  | some cfg =>
    cases hf : s.inFeed with
    | none =>
      rw [whenInFeed_of_idle hf, whenInFeed_of_idle (h.inFeed ▸ hf)]
      exact h.refuse.sameNext
    | some events =>
      rw [whenInFeed_of_feeding ⟨hc, hf⟩, whenInFeed_of_feeding ⟨h.cfg ▸ hc, h.inFeed ▸ hf⟩]
      exact hxy cfg _ _ ⟨h.parser, rfl⟩

/-- Both states select PROC_HDR for the same blocks, since they hold the same Header (R84). -/
theorem State.SameButChunks.execProcHdr (block : Bytes) :
    SameNext (execProcHdr block s) (execProcHdr block t) := by
  refine h.whenInFeed fun cfg r r' hr => ?_
  rw [← h.hdr]
  cases s.parser.hdr with
  | some hdr => exact h.refuse.sameNext
  | none =>
    by_cases hb : block.length = headerSize
    · simpa [hb] using (h.setRun (hr.procHdr cfg block)).sameNext
    · simpa [hb, refuse_eq] using h.refuse.sameNext

/-- Both states select PROC_PAY for the same blocks, since they hold the same Header (R84). -/
theorem State.SameButChunks.procPayWith (X : External) (block : Bytes) :
    SameNext (procPayWith X block s) (procPayWith X block t) := by
  refine h.whenInFeed fun cfg r r' hr => ?_
  rw [← h.hdr]
  cases s.parser.hdr with
  | none => exact h.refuse.sameNext
  | some hdr =>
    by_cases hb : block.length = hdr.size.toNat
    · simpa [hb] using (h.setRun (hr.procPay X hdr block)).sameNext
    · simpa [hb, refuse_eq] using h.refuse.sameNext

/-- No operation tells apart two states that differ in the hidden partition only (R31). -/
theorem State.SameButChunks.exec (i : Instr) : SameNext (exec i s) (exec i t) := by
  cases i with
  | reset magic max => exact h.whenIdle (((h.setCfg _).setParser _).returns .done).sameNext
  | feed chunk =>
    exact h.whenIdle (h.whenConfigured fun cfg =>
      (h.returnsRun (feedRun_sameButChunks h.parser _ cfg chunk)).sameNext)
  | status =>
    refine h.whenIdle (h.whenConfigured fun cfg => ?_)
    rw [statusRecord_of_visible h.parser]
    exact (h.returns _).sameNext
  | frame cmd payload => exact h.whenConfigured fun cfg => (h.returns _).sameNext
  | frameCk cmd payload ck => exact h.whenConfigured fun cfg => (h.returns _).sameNext
  | procHdr block => exact h.execProcHdr block
  | procPay block => exact h.procPayWith _ block

end SameButChunks

/-! ## Refusals without a configuration (R34, R166) -/

/-- A guard around a refusal refuses (R166). -/
theorem whenIdle_refuse (s : State) : whenIdle s (.next s.refuse) = .next s.refuse := by
  cases hf : s.inFeed with
  | none => rw [whenIdle_of_none hf]
  | some events => rw [whenIdle_of_some hf]

/-- Without a configuration every operation but RESET is refused (R34). -/
theorem exec_of_unconfigured {i : Instr} {s : State} (hc : s.cfg = none)
    (hi : ∀ magic max, i ≠ .reset magic max) : exec i s = .next s.refuse := by
  cases i with
  | reset magic max => exact absurd rfl (hi magic max)
  | feed chunk => rw [exec, execFeed, feedWith, whenConfigured_of_none hc, whenIdle_refuse]
  | status => rw [exec, execStatus, whenConfigured_of_none hc, whenIdle_refuse]
  | frame cmd payload => exact whenConfigured_of_none hc _
  | frameCk cmd payload ck => exact whenConfigured_of_none hc _
  | procHdr block => rw [exec, execProcHdr, whenInFeed_of_unconfigured hc]
  | procPay block => rw [exec, execProcPay, procPayWith, whenInFeed_of_unconfigured hc]

/-! ## The fields of a valid header block (R29, R73 to R75, R78) -/

/-- The byte at the terminator is 0x00 (R16). -/
theorem byteAt_firstNul {b : Bytes} {off n k : Nat} (h : firstNul b off n = some k) :
    byteAt b (off + k) = 0#8 := by
  simpa using (List.find?_range_eq_some.mp h).1

/-- The command field is the command, its terminator and the padding (R73, R78). -/
theorem cmdField_eq_blockCmd {b : Bytes} {k : Nat} (hb : b.length = 24)
    (hk : blockTerminator b = some k) :
    ∃ padding, (b.drop 4).take 12 = blockCmd b k ++ 0#8 :: padding := by
  have hk12 : k < 12 := (firstNul_eq_some hk).1
  have hlen : k < ((b.drop 4).take 12).length := by simp [hb]; omega
  have hnul : ((b.drop 4).take 12)[k] = 0#8 := by
    have h0 := byteAt_firstNul hk
    simpa [byteAt, cmdOffset, List.getElem?_eq_getElem (show 4 + k < b.length by omega)] using h0
  have hcmd : blockCmd b k = ((b.drop 4).take 12).take k := by
    rw [List.take_take, Nat.min_eq_left hk12.le]
    rfl
  refine ⟨((b.drop 4).take 12).drop (k + 1), ?_⟩
  rw [← hnul, List.getElem_cons_drop, hcmd, List.take_append_drop]

/-- A u32 field of a block that has its four bytes is written back as those bytes (R12, R53). -/
theorem wle32_le32_at {b : Bytes} {off : Nat} (h : off + 4 ≤ b.length) :
    wle32 (le32 b off) = (b.drop off).take 4 := by
  rw [← wle32_le32 (by simp; omega), le32_drop, Nat.add_zero]

/-! ## The obligations of 10_state.md -/

/-- Settles O36: the congruence of each operation, from those of the drain loop and the guards. -/
theorem chunkPartitionIsHidden : Obligations.ChunkPartitionIsHidden :=
  fun i _ _ s' t' h hs ht => h.exec i s' t' hs ht

/-- Settles O51: a step holds the state, refuses, runs an operation or ends a FEED, and each of these
keeps the invariant. -/
theorem stepKeepsTheInvariant : Obligations.StepKeepsTheInvariant := by
  intro s t hi h
  obtain ⟨-, -, hs⟩ | ⟨_, calls, -, -, -, hs⟩ | ⟨_, calls, _, -, -, -, -, hs⟩ |
    ⟨_, calls, _, -, -, -, -, hs⟩ | ⟨events, hf, hu, hs⟩ | ⟨events, hf, -, hs⟩ := step_cases s <;>
    rw [hs] at h
  · cases h; exact hi
  · cases h; exact (hi.setPending calls).refuse
  · cases h; exact (hi.setPending calls).refuse
  · exact (hi.setPending calls).exec h
  · cases h
    obtain ⟨cfg, hc⟩ := hi.feeding hf
    exact State.inv_returnsRun hc.configured (hi.run_legal hc) hu
  · exact (hi.extract hf _).exec h

/-- Settles O5, by the guard of each operation but RESET. -/
theorem unconfiguredOperationsRefused : Obligations.UnconfiguredOperationsRefused :=
  fun _ _ => exec_of_unconfigured

/-- Settles O23, from the layout of the command field and the round trip of a u32 field. -/
theorem validHeaderFields : Obligations.ValidHeaderFields := by
  intro cfg b h hb hv
  obtain ⟨k, hk, hmax, rfl⟩ := classifyHeader_eq_valid hv
  have hk12 : k < 12 := (firstNul_eq_some hk).1
  have hlen : (blockCmd b k).length ≤ 11 := by
    simp [blockCmd, memRead]
    omega
  have hck : wle32 (blockChecksum b) = b.drop 20 := by
    rw [← List.take_of_length_le (show (b.drop 20).length ≤ 4 by simp [hb])]
    exact wle32_le32_at (by simp [hb, checksumOffset])
  exact ⟨hlen, fun h0 => blockCmd_ne_zero hk _ h0 rfl, cmdField_eq_blockCmd hb hk,
    wle32_le32_at (by simp [hb, sizeOffset]), hck, by simpa [exceedsMax] using hmax⟩

/-- Settles O54: the two phases are the two cases of the Header, and in each the invariant gives
`awaiting`, which `total` is below. -/
theorem restingParserBounds : Obligations.RestingParserBounds := by
  intro s cfg hr hi
  have hlt := s.parser.unitComplete_eq_false_iff.mp (hi.between hr.idle)
  have hl := hr.configured ▸ hi.parser
  refine ⟨hlt, fun hp => ?_, fun hp => ?_, ParserState.total_eq_of_legal hl⟩
  · have hh := ParserState.phase_eq_awaitingHeader_iff.mp hp
    obtain ⟨-, ha⟩ := (ParserState.legal_iff_of_none _ hh).mp hl
    rw [ha] at hlt
    exact ⟨ha, Nat.le_of_lt_succ hlt⟩
  · obtain ⟨h, hh⟩ := ParserState.phase_eq_awaitingPayload_iff.mp hp
    obtain ⟨-, ha, hleg⟩ := (ParserState.legal_iff_of_some _ hh).mp hl
    rw [ha] at hlt
    exact ⟨h, hh, ha, by omega, Header.size_le_of_legal hleg, by omega⟩

/-- Settles O1: with no FEED running, the guard of RESET runs its three writes. -/
theorem resetWritesEveryField : Obligations.ResetWritesEveryField :=
  fun _ _ _ hf => ⟨_, whenIdle_of_none hf _, rfl, rfl, rfl⟩

/-- Settles O52: both states hold the Parser's RESET value and a legal result. -/
theorem invariantAtResetAndPowerOn : Obligations.InvariantAtResetAndPowerOn :=
  ⟨State.inv_of_initial rfl rfl (by simp [State.reset, Result.legal]),
    State.inv_of_initial rfl rfl (by simp [State.powerOn])⟩

/-- Settles O53: each value is that of `ParserState.initial` or of the operands. -/
theorem resetStateIsThatOfTheTable : Obligations.ResetStateIsThatOfTheTable :=
  ⟨rfl, rfl, rfl, rfl, rfl, rfl, rfl, rfl⟩

end Sys2Proof.Machine

/-! ## The FIFO along the operations (R51, R101, R102) -/

namespace Sys2Proof.Machine

/-- PROC_HDR leaves the FIFO as it is (R121). -/
@[simp] theorem procHdr_buf (cfg : Profile) (b : Bytes) (r : Run) :
    (procHdr cfg b r).parser.buf = r.parser.buf := by
  obtain ⟨k, -, hp⟩ | ⟨h, -, hp⟩ := procHdr_cases cfg b r
  · rw [hp, Run.raise_parser, ParserState.toAwaitingHeader_buf]
  · rw [hp, ParserState.toAwaitingPayload_buf]

/-- PROC_PAY leaves the FIFO as it is (R124). -/
@[simp] theorem procPay_buf (X : External) (h : Header) (b : Bytes) (r : Run) :
    (procPay X h b r).parser.buf = r.parser.buf := by
  rw [procPay_eq, ParserState.toAwaitingHeader_buf]

/-- PROCESS leaves the FIFO as it is (R120). -/
@[simp] theorem processBlock_buf (X : External) (cfg : Profile) (b : Bytes) (r : Run) :
    (processBlock X cfg b r).parser.buf = r.parser.buf := by
  cases hh : r.parser.hdr with
  | none => rw [processBlock_of_none X cfg b hh, procHdr_buf]
  | some h => rw [processBlock_of_some X cfg b hh, procPay_buf]

/-- An iteration of the drain loop removes `awaiting` bytes at the front (R101, R102). -/
theorem drainOnce_buf (X : External) (cfg : Profile) (r : Run) :
    (drainOnce X cfg r).parser.buf = r.parser.buf.drop r.parser.awaiting.toNat := by
  rw [drainOnce, processBlock_buf, ParserState.extract_buf]

/-- The drain loop removes bytes at the front only (R101). -/
theorem drain_buf_eq_drop (X : External) (cfg : Profile) (fuel : Nat) (r : Run) :
    ∃ n, (drain X cfg fuel r).parser.buf = r.parser.buf.drop n := by
  induction fuel generalizing r with
  | zero => exact ⟨0, rfl⟩
  | succ fuel ih =>
    cases hu : r.parser.unitComplete with
    | false => exact ⟨0, by rw [drain_of_incomplete X cfg _ hu, List.drop_zero]⟩
    | true =>
      obtain ⟨n, hn⟩ := ih (drainOnce X cfg r)
      exact ⟨_, by rw [drain_of_complete X cfg _ hu, hn, drainOnce_buf, List.drop_drop]⟩

/-- FEED puts the chunk at the back and removes bytes at the front only (R51, R100). -/
theorem feedRun_buf_eq_drop (X : External) (cfg : Profile) (chunk : Bytes) (p : ParserState) :
    ∃ n, (feedRun X cfg chunk p).parser.buf = (p.buf ++ chunk).drop n := by
  rw [← ParserState.append_buf]
  exact drain_buf_eq_drop X cfg _ _

/-! ## RESET, by its guard (R150, R166) -/

/-- With no FEED running, RESET makes its three writes (R150). -/
theorem exec_reset_of_idle {s : State} (magic max : U32) (hf : s.inFeed = none) :
    exec (.reset magic max) s =
      .next (((s.setCfg { magic := magic, maxMessageSize := max }).setParser
        ParserState.initial).returns .done) :=
  whenIdle_of_none hf _

/-- While a FEED runs, RESET is refused (R166 item 3). -/
theorem exec_reset_of_running {s : State} {events : List Event} (magic max : U32)
    (hf : s.inFeed = some events) : exec (.reset magic max) s = .next s.refuse :=
  whenIdle_of_some hf _

/-! ## The obligations of 20_memory.md -/

/-- Settles O56: a refusal, STATUS, the Framer and the micro-steps leave the FIFO as it is, FEED
appends and drains, and RESET empties it. -/
theorem fifoReachedOnlyAtItsEnds : Obligations.FifoReachedOnlyAtItsEnds := by
  intro i s t h
  cases exec_eq_next h with
  | refused => exact .inl rfl
  | reset magic max => exact .inr (.inr ⟨magic, max, rfl, rfl⟩)
  | feed chunk =>
    obtain ⟨n, hn⟩ := feedRun_buf_eq_drop Config.external _ chunk s.parser
    exact .inr (.inl ⟨chunk, n, rfl, hn⟩)
  | status => exact .inl rfl
  | frame => exact .inl rfl
  | frameCk => exact .inl rfl
  | procHdr => exact .inl (procHdr_buf ..)
  | procPay => exact .inl (procPay_buf ..)

/-- Settles O2: neither RESET's writes nor a refusal change which branch of the guard the second
RESET takes, and repeating the writes or the refusal changes nothing. -/
theorem resetIsIdempotent : Obligations.ResetIsIdempotent := by
  intro magic max s t h
  cases hf : s.inFeed with
  | none =>
    rw [exec_reset_of_idle magic max hf] at h
    cases h
    exact exec_reset_of_idle magic max hf
  | some events =>
    rw [exec_reset_of_running magic max hf] at h
    cases h
    exact exec_reset_of_running magic max hf

end Sys2Proof.Machine

/-! ## The fields of a descriptor (R52, R81) -/

namespace Sys2Proof

theorem takeBytes_eq_some_iff {n : Nat} {b x rest : Bytes} :
    takeBytes n b = some (x, rest) ↔ x.length = n ∧ b = x ++ rest := by
  unfold takeBytes
  constructor
  · intro h
    split at h
    · cases h
      exact ⟨by simpa, (List.take_append_drop n b).symm⟩
    · cases h
  · rintro ⟨rfl, rfl⟩
    simp

/-- A u32 operand is read from exactly the four bytes the encoder writes (R12, R81). -/
theorem takeU32_eq_some_iff {b rest : Bytes} {v : U32} :
    takeU32 b = some (v, rest) ↔ b = wle32 v ++ rest := by
  simp only [takeU32, Option.map_eq_some_iff, Prod.exists, Prod.mk.injEq, takeBytes_eq_some_iff]
  constructor
  · rintro ⟨x, _, ⟨hx, rfl⟩, rfl, rfl⟩
    rw [wle32_le32 hx.ge, List.take_of_length_le hx.le]
  · rintro rfl
    exact ⟨wle32 v, rest, ⟨wle32_length v, rfl⟩, le32_wle32 v, rfl⟩

/-- The u32 length field holds every length that fits it (R81). -/
theorem eq_lengthField32_iff {n : U32} {x : Bytes} :
    x.length = n.toNat ↔ fitsU32 x.length = true ∧ n = BitVec.ofNat 32 x.length := by
  rw [fitsU32, decide_eq_true_eq]
  constructor
  · intro h
    rw [h, BitVec.ofNat_toNat, BitVec.setWidth_eq]
    exact ⟨n.isLt, rfl⟩
  · rintro ⟨h, rfl⟩
    exact (Nat.mod_eq_of_lt h).symm

/-- A byte string after its u32 length is read exactly as the encoder writes it (R81). -/
theorem takeCounted32_eq_some_iff {b x rest : Bytes} :
    takeCounted32 b = some (x, rest) ↔
      fitsU32 x.length = true ∧ b = lengthField32 x.length ++ (x ++ rest) := by
  simp only [takeCounted32, Option.bind_eq_some_iff, Prod.exists, takeU32_eq_some_iff,
    takeBytes_eq_some_iff]
  constructor
  · rintro ⟨n, _, rfl, hn, rfl⟩
    obtain ⟨hfit, rfl⟩ := eq_lengthField32_iff.mp hn
    exact ⟨hfit, rfl⟩
  · rintro ⟨hfit, rfl⟩
    exact ⟨_, _, rfl, eq_lengthField32_iff.mpr ⟨hfit, rfl⟩, rfl⟩

/-- A byte string after its length byte is read exactly as the encoder writes it (R81). -/
theorem takeCounted8_eq_some_iff {b x rest : Bytes} :
    takeCounted8 b = some (x, rest) ↔
      fitsClen x.length = true ∧ b = lengthField8 x.length ++ (x ++ rest) := by
  simp only [takeCounted8, Option.bind_eq_some_iff, Prod.exists, takeBytes_eq_some_iff]
  constructor
  · rintro ⟨l, _, ⟨hl, rfl⟩, hn, rfl⟩
    obtain ⟨n, rfl⟩ := List.length_eq_one_iff.mp hl
    have hx : x.length = n.toNat := hn
    rw [hx, lengthField8, BitVec.ofNat_toNat, BitVec.setWidth_eq]
    exact ⟨decide_eq_true n.isLt, rfl⟩
  · rintro ⟨hfit, rfl⟩
    have hlt : x.length < 2 ^ 8 := of_decide_eq_true hfit
    exact ⟨lengthField8 x.length, _, ⟨rfl, rfl⟩, (Nat.mod_eq_of_lt hlt).symm, rfl⟩

/-! ## The operands of each opcode (R81) -/

theorem decodeResetOperands_eq_some_iff {b rest : Bytes} {i : Instr} :
    decodeResetOperands b = some (i, rest) ↔
      ∃ magic max, i = .reset magic max ∧ b = wle32 magic ++ (wle32 max ++ rest) := by
  simp only [decodeResetOperands, Option.bind_eq_some_iff, Option.map_eq_some_iff, Prod.exists,
    Prod.mk.injEq, takeU32_eq_some_iff]
  constructor
  · rintro ⟨magic, _, rfl, max, _, rfl, rfl, rfl⟩
    exact ⟨magic, max, rfl, rfl⟩
  · rintro ⟨magic, max, rfl, rfl⟩
    exact ⟨magic, _, rfl, max, _, rfl, rfl, rfl⟩

theorem decodeFeedOperands_eq_some_iff {b rest : Bytes} {i : Instr} :
    decodeFeedOperands b = some (i, rest) ↔
      ∃ chunk, i = .feed chunk ∧ fitsU32 chunk.length = true ∧
        b = lengthField32 chunk.length ++ (chunk ++ rest) := by
  simp only [decodeFeedOperands, Option.map_eq_some_iff, Prod.exists, Prod.mk.injEq,
    takeCounted32_eq_some_iff]
  constructor
  · rintro ⟨chunk, _, ⟨hfit, rfl⟩, rfl, rfl⟩
    exact ⟨chunk, rfl, hfit, rfl⟩
  · rintro ⟨chunk, rfl, hfit, rfl⟩
    exact ⟨chunk, _, ⟨hfit, rfl⟩, rfl, rfl⟩

theorem decodeFrameOperands_eq_some_iff {b rest : Bytes} {i : Instr} :
    decodeFrameOperands b = some (i, rest) ↔
      ∃ cmd payload, i = .frame cmd payload ∧ fitsClen cmd.length = true ∧
        fitsU32 payload.length = true ∧
        b = lengthField8 cmd.length ++ (cmd ++ (lengthField32 payload.length ++
          (payload ++ rest))) := by
  simp only [decodeFrameOperands, Option.bind_eq_some_iff, Option.map_eq_some_iff, Prod.exists,
    Prod.mk.injEq, takeCounted8_eq_some_iff, takeCounted32_eq_some_iff]
  constructor
  · rintro ⟨cmd, _, ⟨hcmd, rfl⟩, payload, _, ⟨hpay, rfl⟩, rfl, rfl⟩
    exact ⟨cmd, payload, rfl, hcmd, hpay, rfl⟩
  · rintro ⟨cmd, payload, rfl, hcmd, hpay, rfl⟩
    exact ⟨cmd, _, ⟨hcmd, rfl⟩, payload, _, ⟨hpay, rfl⟩, rfl, rfl⟩

theorem decodeFrameCkOperands_eq_some_iff {b rest : Bytes} {i : Instr} :
    decodeFrameCkOperands b = some (i, rest) ↔
      ∃ cmd payload ck, i = .frameCk cmd payload ck ∧ fitsClen cmd.length = true ∧
        fitsU32 payload.length = true ∧
        b = lengthField8 cmd.length ++ (cmd ++ (lengthField32 payload.length ++
          (payload ++ (wle32 ck ++ rest)))) := by
  simp only [decodeFrameCkOperands, Option.bind_eq_some_iff, Option.map_eq_some_iff, Prod.exists,
    Prod.mk.injEq, takeCounted8_eq_some_iff, takeCounted32_eq_some_iff, takeU32_eq_some_iff]
  constructor
  · rintro ⟨cmd, _, ⟨hcmd, rfl⟩, payload, _, ⟨hpay, rfl⟩, ck, _, rfl, rfl, rfl⟩
    exact ⟨cmd, payload, ck, rfl, hcmd, hpay, rfl⟩
  · rintro ⟨cmd, payload, ck, rfl, hcmd, hpay, rfl⟩
    exact ⟨cmd, _, ⟨hcmd, rfl⟩, payload, _, ⟨hpay, rfl⟩, ck, _, rfl, rfl, rfl⟩

/-! ## The decoder reads exactly what the encoder writes (R81, R92) -/

/-- The front of a stream is the descriptor of the operation read from it (R81). -/
theorem decodeStream_eq_some {b rest : Bytes} {i : Instr} (h : decodeStream b = some (i, rest)) :
    i.wellFormed = true ∧ i.isHostOp = true ∧ b = descriptorBytes i ++ rest := by
  cases b with
  | nil => cases h
  | cons op operands =>
    simp only [decodeStream] at h
    split_ifs at h <;> subst op
    · obtain ⟨magic, max, rfl, rfl⟩ := decodeResetOperands_eq_some_iff.mp h
      simp [Instr.wellFormed, Instr.isHostOp, descriptorBytes]
    · obtain ⟨chunk, rfl, hfit, rfl⟩ := decodeFeedOperands_eq_some_iff.mp h
      simp [Instr.wellFormed, Instr.isHostOp, descriptorBytes, hfit]
    · cases h
      exact ⟨rfl, rfl, rfl⟩
    · obtain ⟨cmd, payload, rfl, hcmd, hpay, rfl⟩ := decodeFrameOperands_eq_some_iff.mp h
      simp [Instr.wellFormed, Instr.isHostOp, descriptorBytes, hcmd, hpay]
    · obtain ⟨cmd, payload, ck, rfl, hcmd, hpay, rfl⟩ := decodeFrameCkOperands_eq_some_iff.mp h
      simp [Instr.wellFormed, Instr.isHostOp, descriptorBytes, hcmd, hpay]

/-- A descriptor at the front of a stream is read back, and what follows it is left (R81, R91). -/
theorem decodeStream_descriptorBytes_append {i : Instr} (hw : i.wellFormed = true)
    (hh : i.isHostOp = true) (rest : Bytes) :
    decodeStream (descriptorBytes i ++ rest) = some (i, rest) := by
  cases i with
  | reset magic max =>
    simp only [descriptorBytes, List.cons_append, List.append_assoc]
    exact decodeResetOperands_eq_some_iff.mpr ⟨magic, max, rfl, rfl⟩
  | feed chunk =>
    simp only [descriptorBytes, List.cons_append, List.append_assoc]
    exact decodeFeedOperands_eq_some_iff.mpr ⟨chunk, rfl, hw, rfl⟩
  | status => rfl
  | frame cmd payload =>
    obtain ⟨hcmd, hpay⟩ := Bool.and_eq_true_iff.mp hw
    simp only [descriptorBytes, List.cons_append, List.append_assoc]
    exact decodeFrameOperands_eq_some_iff.mpr ⟨cmd, payload, rfl, hcmd, hpay, rfl⟩
  | frameCk cmd payload ck =>
    obtain ⟨hcmd, hpay⟩ := Bool.and_eq_true_iff.mp hw
    simp only [descriptorBytes, List.cons_append, List.append_assoc]
    exact decodeFrameCkOperands_eq_some_iff.mpr ⟨cmd, payload, ck, rfl, hcmd, hpay, rfl⟩
  | procHdr block => cases hh
  | procPay block => cases hh

theorem decodeDescriptor_eq_some_iff_decodeStream {b : Bytes} {i : Instr} :
    decodeDescriptor b = some i ↔ decodeStream b = some (i, []) := by
  rcases hd : decodeStream b with _ | ⟨j, _ | ⟨x, xs⟩⟩ <;> simp [decodeDescriptor, hd]

/-- A descriptor decodes to an operation exactly when it is the one the encoder writes for it
(R81, R92). -/
theorem decodeDescriptor_eq_some_iff {b : Bytes} {i : Instr} :
    decodeDescriptor b = some i ↔
      i.wellFormed = true ∧ i.isHostOp = true ∧ b = descriptorBytes i := by
  rw [decodeDescriptor_eq_some_iff_decodeStream]
  constructor
  · intro h
    simpa using decodeStream_eq_some h
  · rintro ⟨hw, hh, rfl⟩
    simpa using decodeStream_descriptorBytes_append hw hh []

/-- A host operation is encoded as its descriptor (R81). -/
theorem encode_of_isHostOp {i : Instr} (h : i.isHostOp = true) :
    encode i = .descriptor (descriptorBytes i) := by
  cases i with
  | reset | feed | status | frame | frameCk => rfl
  | procHdr | procPay => cases h

/-- A micro-step is encoded as the phase bit that selects it, and its block (R84). -/
theorem encode_decodeMicro (p : Bool) (block : Bytes) :
    encode (decodeMicro p block) = .micro p block := by
  cases p <;> rfl

theorem decode_micro_eq_some_iff {p : Bool} {block : Bytes} {i : Instr} :
    decode (.micro p block) = some i ↔ decodeMicro p block = i ∧ i.wellFormed = true := by
  simp only [decode, Option.ite_none_right_eq_some, Option.some.injEq]
  constructor
  · rintro ⟨hw, rfl⟩
    exact ⟨rfl, hw⟩
  · rintro ⟨rfl, hw⟩
    exact ⟨hw, rfl⟩

/-! ## The length of a descriptor (R81) -/

/-- The descriptor of each operation has its table length (R81). -/
theorem descriptorBytes_length (i : Instr) : (descriptorBytes i).length = tableLength i := by
  cases i with
  | reset magic max => exact Laws.DescriptorLength.reset magic max
  | feed chunk => exact Laws.DescriptorLength.feed chunk
  | status => exact Laws.DescriptorLength.status
  | frame cmd payload => exact Laws.DescriptorLength.frame cmd payload
  | frameCk cmd payload ck => exact Laws.DescriptorLength.frameCk cmd payload ck
  | procHdr block => exact Laws.DescriptorLength.procHdr block
  | procPay block => exact Laws.DescriptorLength.procPay block

/-! ## Programs (R91) -/

/-- The program decoder takes the operation at the front and goes on behind it (R91). -/
theorem decodeProgramFuel_of_decodeStream {b rest : Bytes} {i : Instr}
    (h : decodeStream b = some (i, rest)) (fuel : Nat) :
    decodeProgramFuel (fuel + 1) b = (decodeProgramFuel fuel rest).map (i :: ·) := by
  cases b with
  | nil => cases h
  | cons op operands => simp [decodeProgramFuel, h]

/-- Fuel for as many operations as the program has reads them back in order (R91). -/
theorem decodeProgramFuel_encodeProgram {is : List Instr}
    (h : ∀ i ∈ is, i.wellFormed = true ∧ i.isHostOp = true) :
    ∀ fuel, is.length ≤ fuel → decodeProgramFuel fuel (encodeProgram is) = some is := by
  induction is with
  | nil => intro fuel _; simp [encodeProgram, decodeProgramFuel]
  | cons i is ih =>
    intro fuel hf
    obtain ⟨⟨hw, hh⟩, his⟩ := List.forall_mem_cons.mp h
    obtain ⟨fuel, rfl⟩ : ∃ n, fuel = n + 1 := ⟨fuel - 1, by simp at hf; omega⟩
    have hd : decodeStream (encodeProgram (i :: is)) = some (i, encodeProgram is) :=
      decodeStream_descriptorBytes_append hw hh _
    rw [decodeProgramFuel_of_decodeStream hd, ih his fuel (by simpa using hf), Option.map_some]

theorem descriptorBytes_ne_nil {i : Instr} (h : i.isHostOp = true) : descriptorBytes i ≠ [] := by
  cases i with
  | reset | feed | status | frame | frameCk => exact List.cons_ne_nil _ _
  | procHdr | procPay => cases h

/-- A program has at least one byte for each host operation (R81, R91). -/
theorem length_le_encodeProgram_length {is : List Instr} (h : ∀ i ∈ is, i.isHostOp = true) :
    is.length ≤ (encodeProgram is).length := by
  induction is with
  | nil => exact Nat.zero_le _
  | cons i is ih =>
    obtain ⟨hh, his⟩ := List.forall_mem_cons.mp h
    have hpos := List.length_pos_iff.mpr (descriptorBytes_ne_nil hh)
    have hle := ih his
    rw [encodeProgram] at hle
    rw [encodeProgram, List.flatMap_cons, List.length_append, List.length_cons]
    omega

/-! ## No descriptor begins another one (R81, R92) -/

/-- An operation is a host operation, or the micro-step of a phase bit (R80, R84). -/
theorem Instr.isHostOp_or_micro (i : Instr) :
    i.isHostOp = true ∨ ∃ p block, i = decodeMicro p block := by
  cases i with
  | reset | feed | status | frame | frameCk => exact .inl rfl
  | procHdr block => exact .inr ⟨false, block, rfl⟩
  | procPay block => exact .inr ⟨true, block, rfl⟩

/-- A stream begins with the descriptor of one operation only (R81, R92). -/
theorem descriptorBytes_append_inj {i j : Instr} {r r' : Bytes} (hi : i.wellFormed = true)
    (hi' : i.isHostOp = true) (hj : j.wellFormed = true) (hj' : j.isHostOp = true)
    (h : descriptorBytes i ++ r = descriptorBytes j ++ r') : i = j ∧ r = r' := by
  have hd := decodeStream_descriptorBytes_append hi hi' r
  rw [h, decodeStream_descriptorBytes_append hj hj'] at hd
  cases hd
  exact ⟨rfl, rfl⟩

/-- A stream with a descriptor in front is a descriptor only when nothing follows (R82). -/
theorem eq_nil_of_decodeDescriptor_append {i j : Instr} {more : Bytes} (hw : i.wellFormed = true)
    (hh : i.isHostOp = true) (h : decodeDescriptor (descriptorBytes i ++ more) = some j) :
    more = [] := by
  obtain ⟨hwj, hhj, he⟩ := decodeDescriptor_eq_some_iff.mp h
  exact (descriptorBytes_append_inj hw hh hwj hhj (by rw [he, List.append_nil])).2

/-- The front of a descriptor is a descriptor only when it is the whole of it (R82). -/
theorem tableLength_le_of_decodeDescriptor_take {i j : Instr} {n : Nat} (hw : i.wellFormed = true)
    (hh : i.isHostOp = true) (h : decodeDescriptor ((descriptorBytes i).take n) = some j) :
    tableLength i ≤ n := by
  obtain ⟨hwj, hhj, he⟩ := decodeDescriptor_eq_some_iff.mp h
  have hrest : (descriptorBytes i).drop n = [] :=
    (descriptorBytes_append_inj hwj hhj hw hh
      (by rw [← he, List.take_append_drop, List.append_nil])).2
  rw [← descriptorBytes_length]
  exact List.drop_eq_nil_iff.mp hrest

/-! ## Opcodes (R80, R82) -/

/-- A descriptor that decodes begins with one of the five opcodes (R80, R82). -/
theorem opcode_mem_opcodes {op : Byte} {operands : Bytes} {i : Instr}
    (h : decodeDescriptor (op :: operands) = some i) : op ∈ opcodes := by
  obtain ⟨-, hh, h⟩ := decodeDescriptor_eq_some_iff.mp h
  cases i with
  | reset | feed | status | frame | frameCk =>
    obtain ⟨rfl, -⟩ := List.cons.inj h
    decide
  | procHdr | procPay => cases hh

/-- The reserved opcodes are none of the five (R82). -/
theorem not_reserved_of_mem_opcodes : ∀ op ∈ opcodes,
    ¬ ((0x03 ≤ op.toNat ∧ op.toNat ≤ 0x0f) ∨ 0x12 ≤ op.toNat) := by decide

/-- A descriptor with a reserved opcode does not decode, whatever follows (R82). -/
theorem decodeDescriptor_of_reserved {op : Byte} (operands : Bytes)
    (h : (0x03 ≤ op.toNat ∧ op.toNat ≤ 0x0f) ∨ 0x12 ≤ op.toNat) :
    decodeDescriptor (op :: operands) = none :=
  Option.eq_none_iff_forall_ne_some.mpr fun _ hd =>
    not_reserved_of_mem_opcodes op (opcode_mem_opcodes hd) h

end Sys2Proof

/-! ## Calls that hold no operation (R82, R166) -/

namespace Sys2Proof.Machine

/-- A call whose descriptor does not decode is refused and taken from the queue (R82, R166). -/
theorem step_of_malformed_call {s : State} {call : HostCall} {calls : List HostCall}
    (hf : s.inFeed = none) (hp : s.pending = call :: calls)
    (hd : decodeDescriptor call.descriptor = none) :
    step s = .next (s.setPending calls).refuse := by
  simp [step, fetch, fetchCall, hf, hp, hd]

/-! ## A micro-step that emits nothing (R33) -/

/-- A running FEED that emits nothing changes its Parser state only (R33). -/
theorem State.setRun_of_running {s : State} {events : List Event} (h : s.inFeed = some events)
    (p : ParserState) : s.setRun { parser := p, events := events } = s.setParser p := by
  rw [State.setRun, State.setParser, ← h]

/-! ## Micro-steps that no FEED has selected (R84, R177) -/

/-- A micro-step is refused when each running FEED refuses it (R84). -/
theorem whenInFeed_eq_refuse {s : State} {run : Profile → Run → Host.Outcome State Fault Refusal}
    (h : ∀ cfg events, s.Feeding cfg events →
      run cfg { parser := s.parser, events := events } = .next s.refuse) :
    whenInFeed s run = .next s.refuse := by
  cases hc : s.cfg with
  | none => exact whenInFeed_of_unconfigured hc run
  | some cfg =>
    cases hf : s.inFeed with
    | none => exact whenInFeed_of_idle hf run
    | some events => rw [whenInFeed_of_feeding ⟨hc, hf⟩, h cfg events ⟨hc, hf⟩]

/-- PROC_HDR is refused outside a FEED, in AwaitingPayload and on a block of another length than a
header's (R84, R177). -/
theorem exec_procHdr_of_unselected {s : State} {block : Bytes}
    (h : s.inFeed = none ∨ s.parser.hdr ≠ none ∨ block.length ≠ 24) :
    exec (.procHdr block) s = .next s.refuse := by
  rw [exec, execProcHdr]
  refine whenInFeed_eq_refuse fun cfg events hf => ?_
  cases hh : s.parser.hdr with
  | some hdr => rfl
  | none =>
    have hlen : block.length ≠ headerSize := by simpa [hf.running, hh, headerSize] using h
    simp only [if_neg hlen, refuse_eq]

/-- PROC_PAY is refused outside a FEED, in AwaitingHeader and on a block of another length than the
Header declares (R84, R177). -/
theorem exec_procPay_of_unselected {s : State} {block : Bytes}
    (h : s.inFeed = none ∨ ∀ hdr, s.parser.hdr = some hdr → block.length ≠ hdr.size.toNat) :
    exec (.procPay block) s = .next s.refuse := by
  rw [exec, execProcPay, procPayWith]
  refine whenInFeed_eq_refuse fun cfg events hf => ?_
  cases hh : s.parser.hdr with
  | none => rfl
  | some hdr =>
    have hlen : block.length ≠ hdr.size.toNat := by simpa [hf.running, hh] using h
    simp only [if_neg hlen, refuse_eq]

/-! ## Header blocks (R72, R78, R79, R83) -/

/-- Two byte sequences of one length with the same bytes are the same. -/
theorem eq_of_byteAt_eq {a b : Bytes} (hl : a.length = b.length)
    (h : ∀ i < a.length, byteAt a i = byteAt b i) : a = b := by
  refine List.ext_getElem hl fun i hi hi' => ?_
  simpa [byteAt, List.getElem?_eq_getElem, hi, hi'] using h i hi

/-- A u32 field is made of its four bytes only (R12). -/
theorem le32_congr {b b' : Bytes} {off : Nat}
    (h : ∀ i, off ≤ i → i < off + 4 → byteAt b i = byteAt b' i) : le32 b off = le32 b' off := by
  rw [le32, le32, h off (by omega) (by omega), h (off + 1) (by omega) (by omega),
    h (off + 2) (by omega) (by omega), h (off + 3) (by omega) (by omega)]

/-- `MemRead` of bytes that agree (R13). -/
theorem memRead_congr {b b' : Bytes} {off n : Nat} (hl : b.length = b'.length)
    (h : ∀ i, off ≤ i → i < off + n → byteAt b i = byteAt b' i) :
    memRead b off n = memRead b' off n := by
  refine eq_of_byteAt_eq (by simp [memRead, hl]) fun i hi => ?_
  have hin : i < n := by
    simp [memRead] at hi
    omega
  rw [memRead, memRead, byteAt_take _ _ _ hin, byteAt_take _ _ _ hin, byteAt_drop, byteAt_drop]
  exact h _ (by omega) (by omega)

/-- A 0x00 among the bytes bounds the first one, which depends on no byte behind it (R16). -/
theorem firstNul_of_nul {b b' : Bytes} {off n k : Nat} (hk : k < n)
    (hnul : byteAt b (off + k) = 0#8)
    (h : ∀ j ≤ k, byteAt b (off + j) = byteAt b' (off + j)) :
    ∃ j ≤ k, firstNul b off n = some j ∧ firstNul b' off n = some j := by
  obtain ⟨j, hj⟩ : ∃ j, firstNul b off n = some j :=
    Option.isSome_iff_exists.mp (List.find?_isSome.mpr ⟨k, List.mem_range.mpr hk, by simp [hnul]⟩)
  obtain ⟨hjn, hlt⟩ := firstNul_eq_some hj
  have hjk : j ≤ k := Nat.le_of_not_lt fun hkj => hlt k hkj hnul
  refine ⟨j, hjk, hj, List.find?_range_eq_some.mpr ⟨?_, List.mem_range.mpr hjn, fun i hi => ?_⟩⟩
  · simpa [h j hjk] using byteAt_firstNul hj
  · simpa [h i (by omega)] using hlt i hi

/-- A u32 is the value of a field exactly when the field holds its wire bytes (R12, R53). -/
theorem le32_eq_iff {b : Bytes} (h : 4 ≤ b.length) (v : U32) :
    le32 b 0 = v ↔ b.take 4 = wle32 v := by
  rw [← wle32_le32 h]
  exact ⟨fun he => by rw [he], fun he => by rw [← le32_wle32 (le32 b 0), he, le32_wle32]⟩

/-- Another magic is reported whatever else the block holds (R79, R121). -/
theorem classifyHeader_of_magic_ne {cfg : Profile} {b : Bytes} (hm : blockMagic b ≠ cfg.magic) :
    classifyHeader cfg b = .invalidMagic :=
  if_pos hm

/-- With the right magic, a missing terminator is reported whatever the size (R79, R121). -/
theorem classifyHeader_of_no_terminator {cfg : Profile} {b : Bytes} (hm : blockMagic b = cfg.magic)
    (hk : blockTerminator b = none) : classifyHeader cfg b = .malformedCommand := by
  simp [classifyHeader, hm, hk]

/-- With the right magic and a terminator, a size above the maximum is reported (R79, R122). -/
theorem classifyHeader_of_size_gt {cfg : Profile} {b : Bytes} {k : Nat}
    (hm : blockMagic b = cfg.magic) (hk : blockTerminator b = some k)
    (hs : (blockSize b).toNat > cfg.maxMessageSize.toNat) :
    classifyHeader cfg b = .oversizedMessage := by
  simp [classifyHeader, hm, hk, exceedsMax, hs]

/-- A block that passes the three checks is valid, with the Header of its fields (R78, R79). -/
theorem classifyHeader_of_size_le {cfg : Profile} {b : Bytes} {k : Nat}
    (hm : blockMagic b = cfg.magic) (hk : blockTerminator b = some k)
    (hs : (blockSize b).toNat ≤ cfg.maxMessageSize.toNat) :
    classifyHeader cfg b =
      .valid { cmd := blockCmd b k, size := blockSize b, checksum := blockChecksum b } := by
  simp [classifyHeader, hm, hk, exceedsMax, hs]

/-- The magic is checked first, and no other check answers InvalidMagic (R79). -/
theorem classifyHeader_eq_invalidMagic_iff (cfg : Profile) (b : Bytes) :
    classifyHeader cfg b = .invalidMagic ↔ blockMagic b ≠ cfg.magic := by
  refine ⟨fun h hm => ?_, classifyHeader_of_magic_ne⟩
  cases hk : blockTerminator b with
  | none => cases (classifyHeader_of_no_terminator hm hk).symm.trans h
  | some k =>
    obtain hs | hs := Nat.lt_or_ge cfg.maxMessageSize.toNat (blockSize b).toNat
    · cases (classifyHeader_of_size_gt hm hk hs).symm.trans h
    · cases (classifyHeader_of_size_le hm hk hs).symm.trans h

/-- The class of a block depends on its fields and on the command before the terminator only
(R78, R79). -/
theorem classifyHeader_congr {cfg : Profile} {b b' : Bytes} {k : Nat}
    (hmagic : blockMagic b = blockMagic b') (hsize : blockSize b = blockSize b')
    (hck : blockChecksum b = blockChecksum b') (hk : blockTerminator b = some k)
    (hk' : blockTerminator b' = some k) (hcmd : blockCmd b k = blockCmd b' k) :
    classifyHeader cfg b = classifyHeader cfg b' := by
  simp only [classifyHeader, hmagic, hsize, hck, hk, hk', hcmd]

/-! ## LOOPBACK and FEEDSPLIT (R90) -/

/-- A frame that fails a check is its error (R144, R145). -/
theorem frameChecks_of_error {cfg : Profile} {cmd payload : Bytes}
    (h : 12 < cmd.length ∨ cfg.maxMessageSize.toNat < payload.length) :
    frameChecks cfg cmd payload =
      some (if 12 < cmd.length then .commandTooLong else .oversizedPayload) := by
  by_cases hc : 12 < cmd.length
  · simp [frameChecks, commandTooLong, cmdFieldSize, hc]
  · have hp : cfg.maxMessageSize.toNat < payload.length := h.resolve_left hc
    simp [frameChecks, commandTooLong, cmdFieldSize, exceedsMax, hc, hp]

/-- FRAME runs when there is a configuration (R140). -/
theorem exec_frame_of_configured {s : State} {cfg : Profile} (cmd payload : Bytes)
    (hc : s.cfg = some cfg) :
    exec (.frame cmd payload) s = .next (s.returns
      (frameResult cfg cmd payload (payloadChecksum Config.external payload))) :=
  whenConfigured_of_some hc _

/-- LOOPBACK of a FRAME that returns an error is that FRAME (R90). -/
theorem loopback_of_frameError {s t : State} {cmd payload : Bytes} {kind : ErrorKind}
    (h : exec (.frame cmd payload) s = .next t) (hr : t.result = some (.frameError kind)) :
    loopback cmd payload s = .next t := by
  simp [loopback, h, hr]

/-- A sequence that is not empty gives its first `n` bytes and the pieces of the rest (R90). -/
theorem piecesFuel_succ_of_ne_nil {b : Bytes} (n fuel : Nat) (h : b ≠ []) :
    piecesFuel n (fuel + 1) b = b.take n :: piecesFuel n fuel (b.drop n) := by
  cases b with
  | nil => exact absurd rfl h
  | cons x xs => rfl

@[simp] theorem piecesFuel_nil (n fuel : Nat) : piecesFuel n fuel [] = [] := by
  cases fuel <;> rfl

/-- The pieces are consecutive and leave no byte out (R90). -/
theorem piecesFuel_flatten {n : Nat} (hn : 1 ≤ n) (fuel : Nat) :
    ∀ b : Bytes, b.length ≤ fuel → (piecesFuel n fuel b).flatten = b := by
  induction fuel with
  | zero => intro b hb; exact (List.length_eq_zero_iff.mp (Nat.le_zero.mp hb)).symm
  | succ fuel ih =>
    intro b hb
    by_cases h : b = []
    · simp [h]
    · have hpos := List.length_pos_iff.mpr h
      have hrest : (b.drop n).length ≤ fuel := by simp; omega
      rw [piecesFuel_succ_of_ne_nil n fuel h, List.flatten_cons, ih _ hrest, List.take_append_drop]

/-- A piece has 1 to `n` bytes (R90). -/
theorem length_of_mem_piecesFuel {n : Nat} (hn : 1 ≤ n) (fuel : Nat) :
    ∀ b : Bytes, ∀ piece ∈ piecesFuel n fuel b, 1 ≤ piece.length ∧ piece.length ≤ n := by
  induction fuel with
  | zero => intro b piece hp; cases hp
  | succ fuel ih =>
    intro b piece hp
    by_cases h : b = []
    · simp [h] at hp
    · have hpos := List.length_pos_iff.mpr h
      rw [piecesFuel_succ_of_ne_nil n fuel h] at hp
      obtain rfl | hp := List.mem_cons.mp hp
      · simp; omega
      · exact ih _ _ hp

/-- A piece that another one follows has `n` bytes (R90). -/
theorem length_of_mem_dropLast_piecesFuel (n fuel : Nat) :
    ∀ b : Bytes, ∀ piece ∈ (piecesFuel n fuel b).dropLast, piece.length = n := by
  induction fuel with
  | zero => intro b piece hp; cases hp
  | succ fuel ih =>
    intro b piece hp
    by_cases h : b = []
    · simp [h] at hp
    · rw [piecesFuel_succ_of_ne_nil n fuel h] at hp
      by_cases hrest : b.drop n = []
      · simp [hrest] at hp
      · have hmore : piecesFuel n fuel (b.drop n) ≠ [] := fun he => by simp [he] at hp
        rw [List.dropLast_cons_of_ne_nil hmore] at hp
        obtain rfl | hp := List.mem_cons.mp hp
        · have hlt : n < b.length := by simpa using hrest
          simpa using hlt.le
        · exact ih _ _ hp

/-! ## The obligations of 30_encoding.md -/

/-- Settles O15: a host operation is read back from its descriptor, and a micro-step from its phase
bit and block. -/
theorem decodeOfEncode : Obligations.DecodeOfEncode := by
  intro i hw
  obtain hh | ⟨p, block, rfl⟩ := i.isHostOp_or_micro
  · rw [encode_of_isHostOp hh]
    exact decodeDescriptor_eq_some_iff.mpr ⟨hw, hh, rfl⟩
  · rw [encode_decodeMicro]
    exact decode_micro_eq_some_iff.mpr ⟨rfl, hw⟩

/-- Settles O16, by the two kinds of encoding: each decodes only from what the encoder writes. -/
theorem encodingIsUnique : Obligations.EncodingIsUnique := by
  intro e i h
  cases e with
  | descriptor b =>
    obtain ⟨hw, hh, rfl⟩ := decodeDescriptor_eq_some_iff.mp h
    exact ⟨encode_of_isHostOp hh, hw⟩
  | micro p block =>
    obtain ⟨rfl, hw⟩ := decode_micro_eq_some_iff.mp h
    exact ⟨encode_decodeMicro p block, hw⟩

/-- Settles O18, by induction on the program: its byte count is fuel for all its operations. -/
theorem programDecodeOfEncode : Obligations.ProgramDecodeOfEncode :=
  fun _ h => decodeProgramFuel_encodeProgram h _
    (length_le_encodeProgram_length fun i hi => (h i hi).2)

/-- Settles O7, by the guard, the phase and the block length of each micro-step. -/
theorem unselectedMicroStepsRefused : Obligations.UnselectedMicroStepsRefused :=
  fun _ _ => ⟨exec_procHdr_of_unselected, exec_procPay_of_unselected⟩

/-- Settles O9: a reserved opcode makes a descriptor that does not decode. -/
theorem reservedAndMalformedCallsRefused : Obligations.ReservedAndMalformedCallsRefused :=
  fun _ _ _ hf hp => ⟨step_of_malformed_call hf hp, fun _ operands hd hop =>
    step_of_malformed_call hf hp (hd ▸ decodeDescriptor_of_reserved operands hop)⟩

/-- Settles O13, from the two rules of a step inside a FEED, the phase being the case of the Header. -/
theorem stepInsideFeed : Obligations.StepInsideFeed := by
  intro s events hf
  constructor
  · intro hle
    refine ⟨_, ParserState.extract_buf s.parser s.parser.awaiting.toNat, ?_⟩
    rw [step_of_complete hf (s.parser.unitComplete_iff.mpr hle), ParserState.extract_block]
    cases hh : s.parser.hdr with
    | none =>
      rw [ParserState.phase_bit_of_none hh]
      rfl
    | some h =>
      rw [ParserState.phase_bit_of_some hh]
      rfl
  · intro hlt
    exact step_of_incomplete hf (s.parser.unitComplete_eq_false_iff.mpr hlt)

/-- Settles O17: no descriptor is the front of another one. -/
theorem wrongByteCountDoesNotDecode : Obligations.WrongByteCountDoesNotDecode := by
  intro i hw hh
  refine ⟨fun n hn => ?_, fun more hmore => ?_⟩ <;>
    refine Option.eq_none_iff_forall_ne_some.mpr fun j hj => ?_
  · exact absurd (tableLength_le_of_decodeDescriptor_take hw hh hj) (Nat.not_le.mpr hn)
  · exact hmore (eq_nil_of_decodeDescriptor_append hw hh hj)

/-- Settles O19, by the opcode of each host operation. -/
theorem opcodeBitsSelectTheGroup : Obligations.OpcodeBitsSelectTheGroup := by
  intro op operands i h
  obtain ⟨-, hh, h⟩ := decodeDescriptor_eq_some_iff.mp h
  cases i with
  | reset | feed | status =>
    obtain ⟨rfl, -⟩ := List.cons.inj h
    exact ⟨rfl, nofun⟩
  | frame cmd payload =>
    obtain ⟨rfl, -⟩ := List.cons.inj h
    exact ⟨rfl, fun _ => ⟨nofun, nofun⟩⟩
  | frameCk cmd payload ck =>
    obtain ⟨rfl, -⟩ := List.cons.inj h
    exact ⟨rfl, fun _ => ⟨fun _ => ⟨cmd, payload, ck, rfl⟩, fun _ => rfl⟩⟩
  | procHdr | procPay => cases hh

/-- Settles O22: the magic is compared as a u32, which is to compare its four wire bytes. -/
theorem magicComparedByteForByte : Obligations.MagicComparedByteForByte := by
  intro cfg b hb
  rw [classifyHeader_eq_invalidMagic_iff, blockMagic, magicOffset, ne_eq,
    le32_eq_iff (by omega)]

/-- Settles O24: the terminator of both blocks is the same byte, at or before the given 0x00, and
what the class reads besides lies outside the padding. -/
theorem paddingIsNotChecked : Obligations.PaddingIsNotChecked := by
  intro cfg b b' k hb hb' hk hnul hagree
  have hbyte : ∀ i, i ≤ 4 + k ∨ 16 ≤ i → byteAt b i = byteAt b' i := hagree
  have hnul : byteAt b (4 + k) = 0#8 := by
    simpa [byteAt, List.getElem?_eq_getElem (show 4 + k < b.length by omega)] using hnul
  obtain ⟨j, hjk, hj, hj'⟩ := firstNul_of_nul hk hnul fun j hj => hbyte _ (.inl (by omega))
  have hcmd : blockCmd b j = blockCmd b' j :=
    memRead_congr (hb.trans hb'.symm) fun i _ hi => hbyte i (.inl (by rw [cmdOffset] at hi; omega))
  have hmagic : blockMagic b = blockMagic b' :=
    le32_congr fun i _ hi => hbyte i (.inl (by rw [magicOffset] at hi; omega))
  have hsize : blockSize b = blockSize b' := le32_congr fun i hi _ => hbyte i (.inr hi)
  have hck : blockChecksum b = blockChecksum b' :=
    le32_congr fun i hi _ => hbyte i (.inr (by rw [checksumOffset] at hi; omega))
  exact (classifyHeader_congr hmagic hsize hck hj hj' hcmd).symm

/-- Settles O59, by induction on the number of pieces that may be cut. -/
theorem feedSplitPieces : Obligations.FeedSplitPieces :=
  fun n b hn => ⟨piecesFuel_flatten hn _ b le_rfl, length_of_mem_piecesFuel hn _ b,
    length_of_mem_dropLast_piecesFuel n _ b⟩

/-- Settles O20: each descriptor is the one that the encoder writes for its operation. -/
theorem tableDescriptorsDecode : Obligations.TableDescriptorsDecode := by
  refine ⟨?_, ?_, ?_, ?_, ?_⟩ <;> exact decodeDescriptor_eq_some_iff.mpr (by decide)

/-- Settles O27, by the class of the block, its checks in the order of R121. -/
theorem procHdrResult : Obligations.ProcHdrResult := by
  intro s cfg events b hf hh hb
  rw [exec_procHdr_of_feeding hf hh hb]
  rw [procHdr]
  by_cases hm : le32 b 0 = cfg.magic
  · rw [if_neg (not_not.mpr hm)]
    cases hk : firstNul b 4 12 with
    | none =>
      rw [classifyHeader_of_no_terminator hm hk]
      rfl
    | some k =>
      obtain hs | hs := Nat.lt_or_ge cfg.maxMessageSize.toNat (le32 b 16).toNat
      · rw [classifyHeader_of_size_gt hm hk hs]
        simp only [if_pos hs]
        rfl
      · rw [classifyHeader_of_size_le hm hk hs]
        simp only [State.setRun_of_running hf.running, if_neg (Nat.not_lt.mpr hs)]
        rfl
  · rw [if_pos hm, classifyHeader_of_magic_ne hm]
    rfl

/-- Settles O50: FRAME answers the error of its checks, and LOOPBACK answers what FRAME does. -/
theorem loopbackOfAnError : Obligations.LoopbackOfAnError := by
  intro s cfg cmd payload hc h
  have hr := frameChecks_of_error h
  have hx := exec_frame_of_configured cmd payload hc
  rw [frameResult, hr] at hx
  exact loopback_of_frameError hx rfl

/-- Settles O60, by assembling each line. -/
theorem assemblyOfTheTable : Obligations.AssemblyOfTheTable := by
  refine ⟨rfl, rfl, rfl, rfl, rfl⟩

end Sys2Proof.Machine

/-! ## A Parser between operations (R32) -/

namespace Sys2Proof.Machine

/-- What the invariant says of the Parser between operations under a configuration (R32). -/
structure ParserState.Resting (cfg : Profile) (p : ParserState) : Prop where
  legal : p.legal (some cfg) = true
  incomplete : p.unitComplete = false

theorem State.Inv.resting {s : State} {cfg : Profile} (hi : s.Inv) (hr : s.Ready cfg) :
    s.parser.Resting cfg :=
  ⟨hr.configured ▸ hi.parser, hi.between hr.idle⟩

/-- FEED leaves the Parser at rest (R32, R105). -/
theorem feedRun_resting (X : External) {cfg : Profile} (chunk : Bytes) {p : ParserState}
    (hp : p.Resting cfg) : (feedRun X cfg chunk p).parser.Resting cfg :=
  ⟨(feedRun_legal X chunk hp.legal).parser, feedRun_unitComplete X chunk hp.legal⟩

/-- A FIFO at rest has room for one more byte (R32, R110). -/
theorem ParserState.Resting.total_succ_le {p : ParserState} {cfg : Profile} (hp : p.Resting cfg) :
    p.total + 1 ≤ max 24 cfg.maxMessageSize.toNat := by
  have hlt := p.unitComplete_eq_false_iff.mp hp.incomplete
  cases hh : p.hdr with
  | none =>
    obtain ⟨-, ha⟩ := (ParserState.legal_iff_of_none _ hh).mp hp.legal
    have ha24 : p.awaiting.toNat = 24 := by rw [ha]; rfl
    omega
  | some h =>
    obtain ⟨-, ha, hleg⟩ := (ParserState.legal_iff_of_some _ hh).mp hp.legal
    have hmax := Header.size_le_of_legal hleg
    rw [ha] at hlt
    omega

/-- AwaitingHeader with an empty FIFO, by what is visible of it (R24, R35). -/
theorem ParserState.fresh_iff {p : ParserState} :
    p.Fresh ↔ p.visible = ParserState.initial.visible := by
  rw [ParserState.visible_eq_iff]
  exact ⟨fun h => ⟨h.empty, h.count, h.awaits, h.noHeader⟩,
    fun ⟨hb, ht, ha, hh⟩ => ⟨hh, ha, hb, ht⟩⟩

theorem ParserState.Fresh.resting {p : ParserState} (hp : p.Fresh) (cfg : Profile) :
    p.Resting cfg where
  legal := (ParserState.legal_iff_of_none _ hp.noHeader).mpr
    ⟨by simp [hp.count, hp.empty], hp.awaits⟩
  incomplete := p.unitComplete_eq_false_iff.mpr (by simp [hp.count, hp.awaits])

/-- Between operations FEED changes the Parser state and the result only (R100). -/
theorem feedWith_of_ready {s : State} {cfg : Profile} (X : External) (chunk : Bytes)
    (hr : s.Ready cfg) : feedWith X chunk s = .next { s with
      parser := (feedRun X cfg chunk s.parser).parser
      result := some (.events (feedRun X cfg chunk s.parser).events) } := by
  rw [feedWith_eq X chunk hr, State.returnsRun, ← hr.idle]

/-! ## The drain loop run to its end (R101, R103) -/

/-- The drain loop with fuel for all the bytes that are buffered. -/
def drainAll (X : External) (cfg : Profile) (r : Run) : Run :=
  drain X cfg (drainFuel r.parser.total) r

/-- FEED is the append and then the drain loop (R100). -/
theorem feedRun_eq_drainAll (X : External) (cfg : Profile) (chunk : Bytes) (p : ParserState) :
    feedRun X cfg chunk p = drainAll X cfg { parser := p.append chunk, events := [] } := rfl

/-- More fuel than work is left is as good as any other (R103, log 13). -/
theorem drain_eq_of_work_lt (X : External) {cfg : Profile} {fuel fuel' : Nat} {r : Run}
    (hl : r.parser.legal (some cfg) = true) (hw : r.parser.work < fuel)
    (hw' : r.parser.work < fuel') : drain X cfg fuel r = drain X cfg fuel' r := by
  induction fuel generalizing fuel' r with
  | zero => omega
  | succ fuel ih =>
    cases hu : r.parser.unitComplete with
    | false => rw [drain_of_incomplete X cfg _ hu, drain_of_incomplete X cfg _ hu]
    | true =>
      have hlt := drainOnce_work_lt X hl hu
      obtain ⟨fuel', rfl⟩ := Nat.exists_eq_add_one_of_ne_zero (Nat.ne_zero_of_lt hw')
      rw [drain_of_complete X cfg _ hu, drain_of_complete X cfg _ hu]
      exact ih (drainOnce_legal X hl) (by omega) (by omega)

theorem drainAll_of_incomplete {r : Run} (X : External) (cfg : Profile)
    (hu : r.parser.unitComplete = false) : drainAll X cfg r = r :=
  drain_of_incomplete X cfg _ hu

theorem drainAll_of_complete {r : Run} {cfg : Profile} (X : External)
    (hl : r.parser.legal (some cfg) = true) (hu : r.parser.unitComplete = true) :
    drainAll X cfg r = drainAll X cfg (drainOnce X cfg r) := by
  have hlt := drainOnce_work_lt X hl hu
  have hw := ParserState.work_lt_drainFuel r.parser
  rw [drainAll, drainFuel, drain_of_complete X cfg _ hu]
  exact drain_eq_of_work_lt X (drainOnce_legal X hl) (by simp only [drainFuel] at hw; omega)
    (ParserState.work_lt_drainFuel _)

/-- Induction along the iterations of the drain loop, each of which lowers the work left (R103). -/
theorem drainAll_induction (X : External) {cfg : Profile}
    {motive : ∀ r : Run, r.parser.legal (some cfg) = true → Prop}
    (incomplete : ∀ r hl, r.parser.unitComplete = false → motive r hl)
    (complete : ∀ r hl, r.parser.unitComplete = true →
      motive (drainOnce X cfg r) (drainOnce_legal X hl) → motive r hl)
    (r : Run) (hl : r.parser.legal (some cfg) = true) : motive r hl := by
  induction hw : r.parser.work using Nat.strong_induction_on generalizing r with
  | h w ih =>
    cases hu : r.parser.unitComplete with
    | false => exact incomplete r hl hu
    | true =>
      exact complete r hl hu (ih _ (hw ▸ drainOnce_work_lt X hl hu) _ (drainOnce_legal X hl) rfl)

/-! ## How many iterations and events (R103, R108) -/

/-- The bound of R103 on the iterations that are left: two for every 24 bytes, and one for the
payload of a Header that is held. -/
def ParserState.iterations (p : ParserState) : Nat := 2 * (p.total / 24) + p.phase.bit.toNat

/-- Each iteration lowers the bound of R103. -/
theorem drainOnce_iterations_lt (X : External) {cfg : Profile} {r : Run}
    (hl : r.parser.legal (some cfg) = true) (hu : r.parser.unitComplete = true) :
    (drainOnce X cfg r).parser.iterations < r.parser.iterations := by
  have ht := drainOnce_total X cfg r
  cases hh : r.parser.hdr with
  | none =>
    have hbit := (drainOnce X cfg r).parser.phase.bit.toNat_le
    obtain ⟨ha, hle⟩ := ParserState.total_ge_of_header_complete hl hu hh
    simp only [ParserState.iterations]
    omega
  | some h =>
    simp only [ParserState.iterations, ht, ParserState.phase_bit_of_some hh,
      ParserState.phase_bit_of_none (drainOnce_hdr_of_some X cfg hh), Bool.toNat_true,
      Bool.toNat_false]
    omega

/-- The drain loop is that many iterations, each begun with a complete unit (R101, R103). -/
theorem drainAll_eq_iterate (X : External) {cfg : Profile} {r : Run}
    (hl : r.parser.legal (some cfg) = true) :
    ∃ n ≤ r.parser.iterations,
      (∀ k < n, ((drainOnce X cfg)^[k] r).parser.unitComplete = true) ∧
      drainAll X cfg r = (drainOnce X cfg)^[n] r := by
  induction r, hl using drainAll_induction X with
  | incomplete r hl hu => exact ⟨0, Nat.zero_le _, nofun, drainAll_of_incomplete X cfg hu⟩
  | complete r hl hu ih =>
    obtain ⟨n, hn, hk, heq⟩ := ih
    have hlt := drainOnce_iterations_lt X hl hu
    refine ⟨n + 1, by omega, fun k hkn => ?_, by rw [drainAll_of_complete X hl hu, heq]; rfl⟩
    cases k with
    | zero => exact hu
    | succ k => exact hk k (by omega)

/-- PROCESS emits at most one event (R108). -/
theorem processBlock_events_length_le (X : External) (cfg : Profile) (b : Bytes) (r : Run) :
    (processBlock X cfg b r).events.length ≤ r.events.length + 1 := by
  cases hh : r.parser.hdr with
  | some h => simp [processBlock_of_some X cfg b hh, procPay_eq]
  | none =>
    rw [processBlock_of_none X cfg b hh]
    obtain ⟨k, -, hp⟩ | ⟨h, -, hp⟩ := procHdr_cases cfg b r <;> simp [hp]

/-- `n` iterations emit at most `n` events (R103). -/
theorem iterate_drainOnce_events_length_le (X : External) (cfg : Profile) (n : Nat) (r : Run) :
    ((drainOnce X cfg)^[n] r).events.length ≤ r.events.length + n := by
  induction n with
  | zero => rfl
  | succ n ih =>
    rw [Function.iterate_succ_apply']
    have hle : (drainOnce X cfg ((drainOnce X cfg)^[n] r)).events.length
        ≤ ((drainOnce X cfg)^[n] r).events.length + 1 := processBlock_events_length_le X cfg _ _
    omega

/-! ## Bytes at the back and events at the front (R104) -/

/-- A run with more bytes at the back of its FIFO. -/
def Run.append (r : Run) (chunk : Bytes) : Run := { r with parser := r.parser.append chunk }

@[simp] theorem Run.append_parser (r : Run) (chunk : Bytes) :
    (r.append chunk).parser = r.parser.append chunk := rfl
@[simp] theorem Run.append_events (r : Run) (chunk : Bytes) :
    (r.append chunk).events = r.events := rfl

/-- A run with the events of an earlier one before its own. -/
def Run.prepend (es : List Event) (r : Run) : Run := { r with events := es ++ r.events }

@[simp] theorem Run.prepend_parser (es : List Event) (r : Run) :
    (r.prepend es).parser = r.parser := rfl
@[simp] theorem Run.prepend_events (es : List Event) (r : Run) :
    (r.prepend es).events = es ++ r.events := rfl

theorem Run.SameButChunks.refl (r : Run) : r.SameButChunks r := ⟨rfl, rfl⟩

theorem Run.SameButChunks.trans {r r' r'' : Run} (h : r.SameButChunks r')
    (h' : r'.SameButChunks r'') : r.SameButChunks r'' :=
  ⟨h.parser.trans h'.parser, h.events.trans h'.events⟩

theorem Run.SameButChunks.append {r r' : Run} (h : r.SameButChunks r') (chunk : Bytes) :
    (r.append chunk).SameButChunks (r'.append chunk) :=
  ⟨ParserState.append_visible h.parser chunk, h.events⟩

theorem Run.SameButChunks.prepend {r r' : Run} (h : r.SameButChunks r') (es : List Event) :
    (r.prepend es).SameButChunks (r'.prepend es) :=
  ⟨h.parser, congrArg (es ++ ·) h.events⟩

theorem Run.SameButChunks.drainAll {r r' : Run} (h : r.SameButChunks r') (X : External)
    (cfg : Profile) : (drainAll X cfg r).SameButChunks (drainAll X cfg r') := by
  obtain ⟨-, ht, -, -⟩ := ParserState.visible_eq_iff.mp h.parser
  rw [Machine.drainAll, Machine.drainAll, ← ht]
  exact h.drain X cfg _

theorem ParserState.append_append_visible (p : ParserState) (a b : Bytes) :
    (p.append (a ++ b)).visible = ((p.append a).append b).visible := by
  simp [ParserState.visible_eq_iff, Nat.add_assoc]

/-- A complete unit stays complete when bytes join at the back. -/
theorem ParserState.append_unitComplete {p : ParserState} (chunk : Bytes)
    (hu : p.unitComplete = true) : (p.append chunk).unitComplete = true := by
  rw [ParserState.unitComplete_iff] at hu ⊢
  simp only [ParserState.append_total, ParserState.append_awaiting]
  omega

/-- PROCESS does not look at the FIFO (R120). -/
theorem processBlock_append (X : External) (cfg : Profile) (b chunk : Bytes) (r : Run) :
    processBlock X cfg b (r.append chunk) = (processBlock X cfg b r).append chunk := by
  cases hh : r.parser.hdr with
  | some h =>
    rw [processBlock_of_some X cfg b hh, processBlock_of_some (r := r.append chunk) X cfg b hh,
      procPay_eq, procPay_eq]
    rfl
  | none =>
    rw [processBlock_of_none X cfg b hh, processBlock_of_none (r := r.append chunk) X cfg b hh,
      procHdr, procHdr]
    cases classifyHeader cfg b <;> rfl

/-- PROCESS does not look at the events so far (R120). -/
theorem processBlock_prepend (X : External) (cfg : Profile) (b : Bytes) (es : List Event)
    (r : Run) : processBlock X cfg b (r.prepend es) = (processBlock X cfg b r).prepend es := by
  cases hh : r.parser.hdr with
  | some h =>
    rw [processBlock_of_some X cfg b hh, processBlock_of_some (r := r.prepend es) X cfg b hh]
    simp [procPay_eq, Run.prepend]
  | none =>
    rw [processBlock_of_none X cfg b hh, processBlock_of_none (r := r.prepend es) X cfg b hh,
      procHdr, procHdr]
    cases classifyHeader cfg b <;> simp [Run.prepend, Run.raise]

/-- EXTRACT of a complete unit takes the bytes that were there before others joined (R102). -/
theorem ParserState.extract_append {p : ParserState} {cfg : Option Profile} (chunk : Bytes)
    (hl : p.legal cfg = true) (hu : p.unitComplete = true) :
    ((p.append chunk).extract p.awaiting.toNat).1 = (p.extract p.awaiting.toNat).1 ∧
    ((p.append chunk).extract p.awaiting.toNat).2.visible
      = ((p.extract p.awaiting.toNat).2.append chunk).visible := by
  have hle := p.unitComplete_iff.mp hu
  have hb : p.awaiting.toNat ≤ p.buf.length := ParserState.total_eq_of_legal hl ▸ hle
  constructor
  · simp [List.take_append_of_le_length hb]
  · simp [ParserState.visible_eq_iff, List.drop_append_of_le_length hb, Nat.sub_add_comm hle]

/-- An iteration takes its block from the front, so bytes may join at the back before it or after it
(R104). -/
theorem drainOnce_append (X : External) {cfg : Profile} {r : Run} (chunk : Bytes)
    (hl : r.parser.legal (some cfg) = true) (hu : r.parser.unitComplete = true) :
    (drainOnce X cfg (r.append chunk)).SameButChunks ((drainOnce X cfg r).append chunk) := by
  obtain ⟨hblock, hrest⟩ := ParserState.extract_append chunk hl hu
  have hx : Run.SameButChunks
      { r with parser := ((r.parser.append chunk).extract r.parser.awaiting.toNat).2 }
      (Run.append { r with parser := (r.parser.extract r.parser.awaiting.toNat).2 } chunk) :=
    ⟨hrest, rfl⟩
  rw [drainOnce, drainOnce, Run.append_parser, ParserState.append_awaiting, hblock,
    ← processBlock_append]
  exact hx.processBlock X cfg _

/-- Bytes may join at the back before the drain loop or, with another drain, after it (R104). -/
theorem drainAll_append (X : External) {cfg : Profile} {r : Run} (chunk : Bytes)
    (hl : r.parser.legal (some cfg) = true) :
    (drainAll X cfg (r.append chunk)).SameButChunks
      (drainAll X cfg ((drainAll X cfg r).append chunk)) := by
  induction r, hl using drainAll_induction X with
  | incomplete r hl hu => rw [drainAll_of_incomplete X cfg hu]; exact .refl _
  | complete r hl hu ih =>
    rw [drainAll_of_complete X hl hu, drainAll_of_complete (r := r.append chunk) X
      (ParserState.append_legal chunk hl) (ParserState.append_unitComplete chunk hu)]
    exact ((drainOnce_append X chunk hl hu).drainAll X cfg).trans ih

theorem drainOnce_prepend (X : External) (cfg : Profile) (es : List Event) (r : Run) :
    drainOnce X cfg (r.prepend es) = (drainOnce X cfg r).prepend es := by
  rw [drainOnce, drainOnce, ← processBlock_prepend]
  rfl

/-- The drain loop does not look at the events so far (R101). -/
theorem drain_prepend (X : External) (cfg : Profile) (es : List Event) (fuel : Nat) (r : Run) :
    drain X cfg fuel (r.prepend es) = (drain X cfg fuel r).prepend es := by
  induction fuel generalizing r with
  | zero => rfl
  | succ fuel ih =>
    cases hu : r.parser.unitComplete with
    | false =>
      rw [drain_of_incomplete X cfg _ hu, drain_of_incomplete (r := r.prepend es) X cfg _ hu]
    | true =>
      rw [drain_of_complete X cfg _ hu, drain_of_complete (r := r.prepend es) X cfg _ hu,
        drainOnce_prepend, ih]

theorem drainAll_prepend (X : External) (cfg : Profile) (es : List Event) (r : Run) :
    (drainAll X cfg r).prepend es = drainAll X cfg (r.prepend es) :=
  (drain_prepend X cfg es _ r).symm

/-! ## FEEDs one after the other (R104, R110) -/

/-- FEED of two chunks in one is FEED of the first and then of the second (R104). -/
theorem feedRun_append (X : External) {cfg : Profile} (a b : Bytes) {p : ParserState}
    (hl : p.legal (some cfg) = true) :
    (feedRun X cfg (a ++ b) p).SameButChunks
      ((feedRun X cfg b (feedRun X cfg a p).parser).prepend (feedRun X cfg a p).events) := by
  have hjoin : Run.SameButChunks { parser := p.append (a ++ b), events := [] }
      (Run.append { parser := p.append a, events := [] } b) :=
    ⟨ParserState.append_append_visible p a b, rfl⟩
  have hsecond : drainAll X cfg ((feedRun X cfg a p).append b)
      = (feedRun X cfg b (feedRun X cfg a p).parser).prepend (feedRun X cfg a p).events := by
    rw [feedRun_eq_drainAll X cfg b, drainAll_prepend, Run.prepend, List.append_nil]
    rfl
  rw [← hsecond]
  exact (hjoin.drainAll X cfg).trans (drainAll_append X b (ParserState.append_legal a hl))

/-- A FEED that completes no unit is its append (R106). -/
theorem feedRun_of_incomplete (X : External) (cfg : Profile) {chunk : Bytes} {p : ParserState}
    (hlt : p.total + chunk.length < p.awaiting.toNat) :
    feedRun X cfg chunk p = { parser := p.append chunk, events := [] } :=
  drain_of_incomplete X cfg _ ((p.append chunk).unitComplete_eq_false_iff.mpr hlt)

/-- FEED of no bytes leaves a Parser at rest as it is, its hidden partition aside (R106, log 11). -/
theorem feedRun_nil (X : External) {cfg : Profile} {p : ParserState} (hp : p.Resting cfg) :
    (feedRun X cfg [] p).SameButChunks { parser := p, events := [] } := by
  rw [feedRun_of_incomplete X cfg (chunk := []) (p.unitComplete_eq_false_iff.mp hp.incomplete)]
  exact ⟨by simp [ParserState.visible_eq_iff], rfl⟩

/-- FEEDs of the chunks one after the other, on the Parser state. -/
def feedEach (X : External) (cfg : Profile) : List Bytes → ParserState → Run
  | [], p => { parser := p, events := [] }
  | c :: cs, p =>
    (feedEach X cfg cs (feedRun X cfg c p).parser).prepend (feedRun X cfg c p).events

/-- Any split of the bytes into chunks gives the same (R104). -/
theorem feedRun_flatten (X : External) {cfg : Profile} (chunks : List Bytes) {p : ParserState}
    (hp : p.Resting cfg) :
    (feedRun X cfg chunks.flatten p).SameButChunks (feedEach X cfg chunks p) := by
  induction chunks generalizing p with
  | nil => exact feedRun_nil X hp
  | cons c cs ih =>
    exact (feedRun_append X c cs.flatten hp.legal).trans
      ((ih (feedRun_resting X c hp)).prepend _)

theorem feedEach_resting (X : External) {cfg : Profile} (chunks : List Bytes) {p : ParserState}
    (hp : p.Resting cfg) : (feedEach X cfg chunks p).parser.Resting cfg := by
  induction chunks generalizing p with
  | nil => exact hp
  | cons c cs ih => exact ih (feedRun_resting X c hp)

/-- Absorbing byte by byte is FEED of one-byte chunks (R110). -/
theorem feedSerial_eq_feedEach (X : External) (cfg : Profile) (chunk : Bytes) (p : ParserState) :
    feedSerial X cfg chunk p = feedEach X cfg (chunk.map ([·])) p := by
  induction chunk generalizing p with
  | nil => rfl
  | cons b bs ih => rw [feedSerial, ih]; rfl

/-- FEED operations one after the other run `feedEach` on the Parser state, and change nothing but
that and the result (R104). -/
theorem feedAll_eq_feedEach {s : State} {cfg : Profile} (chunks : List Bytes) (hr : s.Ready cfg) :
    (feedAll chunks s).2 = (feedEach Config.external cfg chunks s.parser).events ∧
    ∃ port, (feedAll chunks s).1 = { s with
      parser := (feedEach Config.external cfg chunks s.parser).parser, result := port } := by
  induction chunks generalizing s with
  | nil => exact ⟨rfl, s.result, rfl⟩
  | cons c cs ih =>
    have hx : exec (.feed c) s = _ := feedWith_of_ready Config.external c hr
    obtain ⟨hev, port, hst⟩ := ih (s := { s with
      parser := (feedRun Config.external cfg c s.parser).parser
      result := some (.events (feedRun Config.external cfg c s.parser).events) })
      ⟨hr.configured, hr.idle⟩
    rw [feedAll, hx]
    exact ⟨congrArg _ hev, port, hst⟩

/-! ## A whole frame (R107, R108, R134) -/

/-- An iteration on a valid header block starts its payload and emits nothing (R121). -/
theorem drainOnce_of_validHeader (X : External) {cfg : Profile} {r : Run} {b rest : Bytes}
    {h : Header} (hl : r.parser.legal (some cfg) = true) (hh : r.parser.hdr = none)
    (hbuf : r.parser.buf = b ++ rest) (hb : b.length = 24)
    (hv : classifyHeader cfg b = .valid h) :
    (drainOnce X cfg r).parser.visible = (rest, rest.length, h.size, some h) ∧
    (drainOnce X cfg r).events = r.events := by
  obtain ⟨ht, ha⟩ := (ParserState.legal_iff_of_none _ hh).mp hl
  have ha : r.parser.awaiting.toNat = b.length := by rw [ha, hb]; rfl
  rw [drainOnce, processBlock_of_none X cfg _ (by exact hh), ParserState.extract_block, ha, hbuf,
    List.take_left, procHdr, hv]
  simp [ParserState.visible, ht, hbuf]

/-- An iteration on a payload emits its event and is back in AwaitingHeader (R124, R127). -/
theorem drainOnce_of_payload (X : External) {cfg : Profile} {r : Run} {payload rest : Bytes}
    {h : Header} (hl : r.parser.legal (some cfg) = true) (hh : r.parser.hdr = some h)
    (hbuf : r.parser.buf = payload ++ rest) (hsize : payload.length = h.size.toNat) :
    (drainOnce X cfg r).parser.visible = (rest, rest.length, 24#32, none) ∧
    (drainOnce X cfg r).events = r.events ++ [payloadEvent X h.cmd payload h.checksum] := by
  obtain ⟨ht, ha, -⟩ := (ParserState.legal_iff_of_some _ hh).mp hl
  rw [← ha] at hsize
  rw [drainOnce, processBlock_of_some X cfg _ (by exact hh), ParserState.extract_block, ← hsize,
    hbuf, List.take_left, procPay_eq]
  simp [ParserState.visible, ht, hbuf]

/-- The bytes of a whole unit at the front make it complete. -/
theorem ParserState.unitComplete_of_buf {p : ParserState} {cfg : Option Profile}
    {unit rest : Bytes} (hl : p.legal cfg = true) (hbuf : p.buf = unit ++ rest)
    (ha : p.awaiting.toNat = unit.length) : p.unitComplete = true := by
  rw [ParserState.unitComplete_iff, ParserState.total_eq_of_legal hl, hbuf, ha, List.length_append]
  exact Nat.le_add_right _ _

/-- A valid header block and the payload it declares take two iterations, which give one event and
leave the rest to AwaitingHeader (R107, R134). -/
theorem drainAll_of_validFrame (X : External) {cfg : Profile} {r : Run} {b payload rest : Bytes}
    {h : Header} (hl : r.parser.legal (some cfg) = true) (hh : r.parser.hdr = none)
    (hbuf : r.parser.buf = b ++ (payload ++ rest)) (hb : b.length = 24)
    (hv : classifyHeader cfg b = .valid h) (hsize : payload.length = h.size.toNat) :
    ∃ r' : Run, drainAll X cfg r = drainAll X cfg r' ∧
      r'.parser.visible = (rest, rest.length, 24#32, none) ∧
      r'.events = r.events ++ [payloadEvent X h.cmd payload h.checksum] := by
  obtain ⟨-, ha⟩ := (ParserState.legal_iff_of_none _ hh).mp hl
  have hu : r.parser.unitComplete = true :=
    ParserState.unitComplete_of_buf hl hbuf (by rw [ha, hb]; rfl)
  obtain ⟨hvis, hev⟩ := drainOnce_of_validHeader X hl hh hbuf hb hv
  simp only [ParserState.visible, Prod.mk.injEq] at hvis
  obtain ⟨hbuf', -, ha', hh'⟩ := hvis
  have hl' := drainOnce_legal X hl
  have hu' : (drainOnce X cfg r).parser.unitComplete = true :=
    ParserState.unitComplete_of_buf hl' hbuf' (by rw [ha', hsize])
  obtain ⟨hvis', hev'⟩ := drainOnce_of_payload X hl' hh' hbuf' hsize
  exact ⟨_, by rw [drainAll_of_complete X hl hu, drainAll_of_complete X hl' hu'], hvis',
    by rw [hev', hev]⟩

/-- Bytes that join an empty FIFO in AwaitingHeader are all that is visible. -/
theorem ParserState.Fresh.append_visible {p : ParserState} (hp : p.Fresh) (chunk : Bytes) :
    (p.append chunk).visible = (chunk, chunk.length, 24#32, none) := by
  simp [ParserState.visible, hp.empty, hp.count, hp.awaits, hp.noHeader]

/-- FEED of a whole frame gives the payload's one event, and what follows is judged as if the frame
had never been there (R108). -/
theorem feedRun_validFrame (X : External) {cfg : Profile} {b payload : Bytes} (rest : Bytes)
    {h : Header} {p : ParserState} (hp : p.Fresh) (hb : b.length = 24)
    (hv : classifyHeader cfg b = .valid h) (hsize : payload.length = h.size.toNat) :
    (feedRun X cfg (b ++ payload ++ rest) p).SameButChunks
      ((feedRun X cfg rest p).prepend [payloadEvent X h.cmd payload h.checksum]) := by
  obtain ⟨r', hr', hvis, hev⟩ := drainAll_of_validFrame X (rest := rest)
    (r := { parser := p.append (b ++ payload ++ rest), events := [] })
    (ParserState.append_legal _ (hp.resting cfg).legal) hp.noHeader (by simp [hp.empty]) hb hv hsize
  have hsame : r'.SameButChunks (Run.prepend [payloadEvent X h.cmd payload h.checksum]
      { parser := p.append rest, events := [] }) :=
    ⟨hvis.trans (hp.append_visible rest).symm, hev⟩
  rw [feedRun_eq_drainAll, feedRun_eq_drainAll, drainAll_prepend, hr']
  exact hsame.drainAll X cfg

/-! ## The frame that the Framer builds (R140, R142) -/

/-- The header block of a frame: its four fields (R70, R142). -/
def headerBlock (cfg : Profile) (cmd : Bytes) (size ck : U32) : Bytes :=
  wle32 cfg.magic ++ cmdField cmd ++ wle32 size ++ wle32 ck

/-- `memWrite_at_end` at an offset that is the number of bytes written so far. -/
theorem memWrite_append_zeros {a v : Bytes} {off n m : Nat} (ha : a.length = off)
    (hv : v.length = n) (hn : n ≤ m) :
    memWrite (a ++ zeros m) off n v = (a ++ v) ++ zeros (m - n) :=
  ha ▸ memWrite_at_end a v n m hv hn

/-- BUILD's five writes put the header's fields and the payload one after the other (R142). -/
theorem buildFrame_eq_append (cfg : Profile) {cmd : Bytes} (payload : Bytes) (ck : U32)
    (hc : cmd.length ≤ 12) : buildFrame cfg cmd payload ck =
      headerBlock cfg cmd (BitVec.ofNat 32 payload.length) ck ++ payload := by
  have hf := cmdField_length cmd hc
  rw [buildFrame, ← List.nil_append (zeros _), headerSize, cmdFieldSize,
    memWrite_append_zeros (by rfl) (wle32_length _) (by omega),
    memWrite_append_zeros (by rfl) hf (by omega),
    memWrite_append_zeros (by simp [hf, sizeOffset]) (wle32_length _) (by omega),
    memWrite_append_zeros (by simp [hf, checksumOffset]) (wle32_length _) (by omega),
    memWrite_append_zeros (by simp [hf, payloadOffset]) rfl (by omega)]
  simp [headerBlock, zeros]
  omega

section HeaderBlock

variable {cfg : Profile} {cmd : Bytes} {size ck : U32}

theorem headerBlock_length (hc : cmd.length ≤ 12) : (headerBlock cfg cmd size ck).length = 24 := by
  simp [headerBlock, cmdField_length cmd hc]

theorem blockMagic_headerBlock : blockMagic (headerBlock cfg cmd size ck) = cfg.magic := by
  rw [blockMagic, headerBlock, List.append_assoc, List.append_assoc,
    le32_append_left _ _ _ (by simp [magicOffset]), magicOffset, le32_wle32]

theorem blockSize_headerBlock (hc : cmd.length ≤ 12) :
    blockSize (headerBlock cfg cmd size ck) = size := by
  have hoff : (wle32 cfg.magic ++ cmdField cmd).length = sizeOffset := by
    simp [cmdField_length cmd hc, sizeOffset]
  rw [blockSize, headerBlock, List.append_assoc, le32_append_right _ _ _ hoff.le, hoff,
    Nat.sub_self, le32_append_left _ _ _ (wle32_length size).ge, le32_wle32]

theorem blockChecksum_headerBlock (hc : cmd.length ≤ 12) :
    blockChecksum (headerBlock cfg cmd size ck) = ck := by
  have hoff : (wle32 cfg.magic ++ cmdField cmd ++ wle32 size).length = checksumOffset := by
    simp [cmdField_length cmd hc, checksumOffset]
  rw [blockChecksum, headerBlock, le32_append_right _ _ _ hoff.le, hoff, Nat.sub_self, le32_wle32]

/-- The bytes of the command field (R70). -/
theorem byteAt_headerBlock_cmd (hc : cmd.length ≤ 12) {i : Nat} (hi : i < 12) :
    byteAt (headerBlock cfg cmd size ck) (cmdOffset + i) = byteAt (cmdField cmd) i := by
  have hf := cmdField_length cmd hc
  rw [headerBlock, List.append_assoc, List.append_assoc,
    byteAt_append_right _ _ _ (by rw [wle32_length, cmdOffset]; omega), wle32_length, cmdOffset,
    Nat.add_sub_cancel_left, byteAt_append_left _ _ _ (by omega)]

/-- The Framer's padding ends a command that holds no 0x00 (R73, R142). -/
theorem blockTerminator_headerBlock (hc : cmd.length ≤ 11) (h0 : 0#8 ∉ cmd) :
    blockTerminator (headerBlock cfg cmd size ck) = some cmd.length := by
  refine List.find?_range_eq_some.mpr
    ⟨?_, List.mem_range.mpr (Nat.lt_succ_of_le hc), fun i hi => ?_⟩
  · rw [byteAt_headerBlock_cmd (by omega) (by omega), cmdField,
      byteAt_append_right _ _ _ le_rfl, Nat.sub_self]
    simp [byteAt, zeros, cmdFieldSize]
  · have hne : cmd[i] ≠ 0#8 := fun h => h0 (h ▸ List.getElem_mem hi)
    rw [byteAt_headerBlock_cmd (by omega) (by omega), cmdField, byteAt_append_left _ _ _ hi]
    simpa [byteAt, hi] using hne

theorem blockCmd_headerBlock : blockCmd (headerBlock cfg cmd size ck) cmd.length = cmd := by
  simp only [blockCmd, memRead, headerBlock, cmdField, List.append_assoc]
  rw [List.drop_left' (show (wle32 cfg.magic).length = cmdOffset from rfl), List.take_left]

/-- A header block with a command of 0 to 11 non-zero bytes and a size within the maximum is read
back as its fields (R78, R79). -/
theorem classifyHeader_headerBlock (hc : cmd.length ≤ 11) (h0 : 0#8 ∉ cmd)
    (hs : size.toNat ≤ cfg.maxMessageSize.toNat) :
    classifyHeader cfg (headerBlock cfg cmd size ck)
      = .valid { cmd := cmd, size := size, checksum := ck } := by
  have hc12 : cmd.length ≤ 12 := by omega
  have hsize := blockSize_headerBlock (cfg := cfg) (size := size) (ck := ck) hc12
  rw [classifyHeader_of_size_le blockMagic_headerBlock (blockTerminator_headerBlock hc h0)
    (by rwa [hsize]), hsize, blockChecksum_headerBlock hc12, blockCmd_headerBlock]

end HeaderBlock

/-- FEED of a frame that the Framer builds gives its payload's one event, and what follows is judged
as if the frame had never been there (R108, R147). -/
theorem feedRun_buildFrame (X : External) {cfg : Profile} {cmd payload : Bytes} (ck : U32)
    (rest : Bytes) {p : ParserState} (hp : p.Fresh) (hc : cmd.length ≤ 11) (h0 : 0#8 ∉ cmd)
    (hmax : payload.length ≤ cfg.maxMessageSize.toNat) :
    (feedRun X cfg (buildFrame cfg cmd payload ck ++ rest) p).SameButChunks
      ((feedRun X cfg rest p).prepend [payloadEvent X cmd payload ck]) := by
  have hsize : (BitVec.ofNat 32 payload.length).toNat = payload.length :=
    Nat.mod_eq_of_lt (Nat.lt_of_le_of_lt hmax cfg.maxMessageSize.isLt)
  rw [buildFrame_eq_append cfg payload ck (by omega)]
  exact feedRun_validFrame X rest hp (headerBlock_length (by omega))
    (classifyHeader_headerBlock hc h0 (hsize.le.trans hmax)) hsize.symm

/-- A payload declared with its computed checksum goes to the codec (R124, R143). -/
theorem payloadEvent_payloadChecksum (X : External) (cmd payload : Bytes) :
    payloadEvent X cmd payload (payloadChecksum X payload) = codecEvent X cmd payload := by
  simp [payloadEvent, checksumDiffers, payloadChecksum]

/-! ## The obligations of 40_parser_feed.md -/

/-- Settles O30: FEED leaves the Parser at rest, and its FIFO is the old one with the chunk, less
some bytes at the front. -/
theorem feedIsSideEffectComplete : Obligations.FeedIsSideEffectComplete := by
  intro s cfg chunk hr hi
  have hp := feedRun_resting Config.external chunk (hi.resting hr)
  have ht := ParserState.total_eq_of_legal hp.legal
  obtain ⟨n, hn⟩ := feedRun_buf_eq_drop Config.external cfg chunk s.parser
  refine ⟨_, _, feedWith_of_ready Config.external chunk hr,
    (ParserState.unitComplete_eq_false_iff _).mp hp.incomplete, ht, ?_⟩
  rw [ht, hn, List.length_drop]
  obtain hlt | hle := Nat.lt_or_ge (s.parser.buf ++ chunk).length n
  · rw [List.drop_of_length_le hlt.le, Nat.sub_eq_zero_of_le hlt.le, Nat.sub_zero, List.drop_length]
  · rw [Nat.sub_sub_self hle]

/-- Settles O31: the drain loop is a number of iterations, and each lowers the bound of R103. -/
theorem feedRunsTheDrainLoop : Obligations.FeedRunsTheDrainLoop := by
  intro s cfg chunk hr hi
  have hl := ParserState.append_legal chunk (hi.resting hr).legal
  obtain ⟨n, hn, hk, heq⟩ := drainAll_eq_iterate Config.external
    (r := { parser := s.parser.append chunk, events := [] }) hl
  have hfeed := feedWith_of_ready Config.external chunk hr
  have hrest := (feedRun_resting Config.external chunk (hi.resting hr)).incomplete
  rw [feedRun_eq_drainAll, heq] at hfeed hrest
  have hbit := (s.parser.append chunk).phase.bit.toNat_le
  have hev := iterate_drainOnce_events_length_le Config.external cfg n
    { parser := s.parser.append chunk, events := [] }
  refine ⟨n, ?_, fun k hkn => (ParserState.unitComplete_iff _).mp (hk k hkn),
    (ParserState.unitComplete_eq_false_iff _).mp hrest, hev.trans (Nat.zero_add n).le, hfeed⟩
  simp only [ParserState.iterations, ParserState.append_total] at hn
  omega

/-- Settles O34: FEEDs one after the other run `feedEach`, which gives what FEED of all the bytes
does. -/
theorem fragmentationInvariance : Obligations.FragmentationInvariance := by
  intro s cfg chunks hr hi
  obtain ⟨hvis, hev⟩ := feedRun_flatten Config.external chunks (hi.resting hr)
  obtain ⟨hall, port, hst⟩ := feedAll_eq_feedEach chunks hr
  refine ⟨_, _, feedWith_of_ready Config.external chunks.flatten hr, hall.trans hev.symm, ?_⟩
  rw [hst]
  exact ⟨hvis.symm, rfl, hr.idle, rfl, rfl⟩

/-- Settles O35: byte by byte is a split into one-byte chunks, and before each byte the Parser is at
rest. -/
theorem byteSerialAbsorption : Obligations.ByteSerialAbsorption := by
  intro s cfg chunk hr hi
  obtain ⟨hvis, hev⟩ := feedRun_flatten Config.external (chunk.map ([·])) (hi.resting hr)
  rw [← feedSerial_eq_feedEach, ← List.flatMap_def, List.flatMap_singleton'] at hvis hev
  refine ⟨_, _, feedWith_of_ready Config.external chunk hr, hev.symm, hvis.symm, fun k => ?_⟩
  rw [feedSerial_eq_feedEach]
  exact (feedEach_resting Config.external _ (hi.resting hr)).total_succ_le

/-- Settles O38, by the two iterations on a whole frame. -/
theorem validFrameGivesOneEvent : Obligations.ValidFrameGivesOneEvent := by
  intro s cfg b payload rest h hr hp hb hv hsize
  obtain ⟨hvis, hev⟩ := feedRun_validFrame Config.external rest hp hb hv hsize
  have hfeed := feedWith_of_ready Config.external (b ++ payload ++ rest) hr
  rw [hev] at hfeed
  exact ⟨_, _, _, feedWith_of_ready Config.external rest hr, hfeed, hvis⟩

/-- Settles O40: each frame in turn gives its event and leaves what follows to a fresh Parser. -/
theorem twoFramesInOneChunk : Obligations.TwoFramesInOneChunk := by
  intro s cfg cmd₁ cmd₂ payload₁ payload₂ hr hp hc₁ h0₁ hm₁ hc₂ h0₂ hm₂
  have hfirst := feedRun_buildFrame Config.external (payloadChecksum Config.external payload₁)
    (buildFrame cfg cmd₂ payload₂ (payloadChecksum Config.external payload₂)) hp hc₁ h0₁ hm₁
  have hsecond := feedRun_buildFrame Config.external (payloadChecksum Config.external payload₂)
    [] hp hc₂ h0₂ hm₂
  rw [List.append_nil] at hsecond
  have hnone := feedRun_nil Config.external (hp.resting cfg)
  obtain ⟨hvis, hev⟩ := hfirst.trans ((hsecond.trans (hnone.prepend _)).prepend _)
  refine ⟨_, feedWith_of_ready Config.external _ hr, ?_, ?_⟩
  · rw [hev, payloadEvent_payloadChecksum, payloadEvent_payloadChecksum]
    rfl
  · exact ParserState.fresh_iff.mpr (hvis.trans (ParserState.fresh_iff.mp hp))

/-- Settles O33: the drain loop does not begin, and so too for no bytes fed to a Parser at rest. -/
theorem partialFeed : Obligations.PartialFeed := by
  intro s cfg chunk hr
  refine ⟨fun hlt => ?_, fun hi => ?_⟩
  · have hfeed := feedWith_of_ready Config.external chunk hr
    rw [feedRun_of_incomplete Config.external cfg hlt] at hfeed
    exact ⟨_, hfeed, rfl, s.parser.append_buf chunk⟩
  · obtain ⟨hvis, hev⟩ := feedRun_nil Config.external (hi.resting hr)
    exact ⟨_, feedWith_of_ready Config.external [] hr, congrArg (some ∘ Result.events) hev, hvis⟩

end Sys2Proof.Machine

/-! ## The command field of a header block (R73, R78, R130) -/

namespace Sys2Proof.Machine

section CommandField

variable {cfg : Profile} {cmd front back : Bytes} {size ck : U32}

/-- A full command field takes no padding (R142). -/
theorem cmdField_of_full (hc : cmd.length = 12) : cmdField cmd = cmd := by
  simp [cmdField, hc, cmdFieldSize, zeros]

/-- A full command field with no 0x00 has no terminator (R73). -/
theorem blockTerminator_headerBlock_eq_none (hc : cmd.length = 12) (h0 : 0#8 ∉ cmd) :
    blockTerminator (headerBlock cfg cmd size ck) = none := by
  refine List.find?_eq_none.mpr fun i hi => ?_
  have hi : i < cmd.length := hc ▸ List.mem_range.mp hi
  have hne : cmd[i] ≠ 0#8 := fun h => h0 (h ▸ List.getElem_mem hi)
  rw [byteAt_headerBlock_cmd hc.le (hc ▸ hi), cmdField_of_full hc]
  simpa [byteAt, hi] using hne

/-- The first 0x00 of the command bytes is the terminator, whatever follows it (R73, R83). -/
theorem blockTerminator_headerBlock_of_nul (hc : front.length + 1 + back.length ≤ 12)
    (h0 : 0#8 ∉ front) :
    blockTerminator (headerBlock cfg (front ++ 0#8 :: back) size ck) = some front.length := by
  have hc12 : (front ++ 0#8 :: back).length ≤ 12 := by simp; omega
  refine List.find?_range_eq_some.mpr
    ⟨?_, List.mem_range.mpr (by rw [cmdFieldSize]; omega), fun i hi => ?_⟩
  · rw [byteAt_headerBlock_cmd hc12 (by omega), cmdField, List.append_assoc,
      byteAt_append_right _ _ _ le_rfl, Nat.sub_self]
    rfl
  · have hne : front[i] ≠ 0#8 := fun h => h0 (h ▸ List.getElem_mem hi)
    rw [byteAt_headerBlock_cmd hc12 (by omega), cmdField, List.append_assoc,
      byteAt_append_left _ _ _ hi]
    simpa [byteAt, hi] using hne

/-- The command bytes before a cut (R78). -/
theorem blockCmd_headerBlock_append :
    blockCmd (headerBlock cfg (front ++ back) size ck) front.length = front := by
  simp only [blockCmd, memRead, headerBlock, cmdField, List.append_assoc]
  rw [List.drop_left' (show (wle32 cfg.magic).length = cmdOffset from rfl), List.take_left]

/-- With twelve command bytes and none 0x00 the block is malformed (R79, R130). -/
theorem classifyHeader_headerBlock_of_full (hc : cmd.length = 12) (h0 : 0#8 ∉ cmd) :
    classifyHeader cfg (headerBlock cfg cmd size ck) = .malformedCommand :=
  classifyHeader_of_no_terminator blockMagic_headerBlock
    (blockTerminator_headerBlock_eq_none hc h0)

/-- A header block with a size within the maximum is read back with its command cut at the first
0x00 (R78, R83). -/
theorem classifyHeader_headerBlock_of_nul (hc : front.length + 1 + back.length ≤ 12)
    (h0 : 0#8 ∉ front) (hs : size.toNat ≤ cfg.maxMessageSize.toNat) :
    classifyHeader cfg (headerBlock cfg (front ++ 0#8 :: back) size ck)
      = .valid { cmd := front, size := size, checksum := ck } := by
  have hc12 : (front ++ 0#8 :: back).length ≤ 12 := by simp; omega
  have hsize := blockSize_headerBlock (cfg := cfg) (size := size) (ck := ck) hc12
  rw [classifyHeader_of_size_le blockMagic_headerBlock (blockTerminator_headerBlock_of_nul hc h0)
    (by rwa [hsize]), hsize, blockChecksum_headerBlock hc12, blockCmd_headerBlock_append]

end CommandField

/-- A 0x00 among the bytes of the command field gives a terminator (R16, R73). -/
theorem exists_blockTerminator {b : Bytes} (h : 0#8 ∈ (b.drop 4).take 12) :
    ∃ k, blockTerminator b = some k := by
  obtain ⟨k, hk, hnul⟩ := List.mem_iff_getElem.mp h
  obtain ⟨hk12, hkb⟩ : k < 12 ∧ 4 + k < b.length := by
    simp at hk
    omega
  refine Option.isSome_iff_exists.mp (List.find?_isSome.mpr ⟨k, List.mem_range.mpr hk12, ?_⟩)
  simpa [byteAt, cmdOffset, List.getElem?_eq_getElem hkb] using hnul

/-! ## A rejected header block (R123, R131) -/

/-- PROC_HDR of a rejected block reports the error of its class (R121, R123). -/
theorem procHdr_of_error {cfg : Profile} {b : Bytes} {k : ErrorKind}
    (hk : (classifyHeader cfg b).error = some k) (r : Run) :
    procHdr cfg b r = r.raise k none := by
  obtain ⟨k', hk', hp⟩ | ⟨h, hv, -⟩ := procHdr_cases cfg b r
  · cases hk.symm.trans hk'
    exact hp
  · rw [hv] at hk
    cases hk

/-- An iteration on a rejected header block reports its error and is back in AwaitingHeader (R121,
R123). -/
theorem drainOnce_of_rejectedHeader (X : External) {cfg : Profile} {r : Run} {b rest : Bytes}
    {k : ErrorKind} (hl : r.parser.legal (some cfg) = true) (hh : r.parser.hdr = none)
    (hbuf : r.parser.buf = b ++ rest) (hb : b.length = 24)
    (hk : (classifyHeader cfg b).error = some k) :
    (drainOnce X cfg r).parser.visible = (rest, rest.length, 24#32, none) ∧
    (drainOnce X cfg r).events = r.events ++ [.error k none] := by
  obtain ⟨ht, ha⟩ := (ParserState.legal_iff_of_none _ hh).mp hl
  have ha : r.parser.awaiting.toNat = b.length := by rw [ha, hb]; rfl
  rw [drainOnce, processBlock_of_none X cfg _ (by exact hh), ParserState.extract_block, ha, hbuf,
    List.take_left, procHdr_of_error hk]
  simp [ParserState.visible, ht, hbuf]

/-- The Parser state after the append of a chunk to an empty FIFO is legal (R25). -/
theorem ParserState.Fresh.append_legal {p : ParserState} (hp : p.Fresh) (cfg : Profile)
    (chunk : Bytes) : (p.append chunk).legal (some cfg) = true :=
  ParserState.append_legal chunk (hp.resting cfg).legal

theorem ParserState.Fresh.append_buf {p : ParserState} (hp : p.Fresh) (chunk : Bytes) :
    (p.append chunk).buf = chunk := by
  simp [hp.empty]

/-- FEED that holds a whole header candidate begins with an iteration on it (R101). -/
theorem feedRun_of_fresh (X : External) {cfg : Profile} {chunk : Bytes} {p : ParserState}
    (hp : p.Fresh) (hlen : 24 ≤ chunk.length) : feedRun X cfg chunk p =
      drainAll X cfg (drainOnce X cfg { parser := p.append chunk, events := [] }) :=
  drainAll_of_complete X (hp.append_legal cfg chunk)
    ((p.append chunk).unitComplete_iff.mpr (by simpa [hp.awaits, hp.count] using hlen))

/-- FEED of a rejected header block gives its error, and what follows is judged as if the block had
never been there (R123, R131). -/
theorem feedRun_rejectedHeader (X : External) {cfg : Profile} {b : Bytes} (rest : Bytes)
    {k : ErrorKind} {p : ParserState} (hp : p.Fresh) (hb : b.length = 24)
    (hk : (classifyHeader cfg b).error = some k) :
    (feedRun X cfg (b ++ rest) p).SameButChunks
      ((feedRun X cfg rest p).prepend [.error k none]) := by
  obtain ⟨hvis, hev⟩ := drainOnce_of_rejectedHeader X
    (r := { parser := p.append (b ++ rest), events := [] })
    (hp.append_legal cfg _) hp.noHeader (hp.append_buf _) hb hk
  have hsame : Run.SameButChunks _ (Run.prepend [.error k none]
      { parser := p.append rest, events := [] }) :=
    ⟨hvis.trans (hp.append_visible rest).symm, hev⟩
  rw [feedRun_of_fresh X hp (by simp [hb]), feedRun_eq_drainAll, drainAll_prepend]
  exact hsame.drainAll X cfg

/-! ## A header block and its payload in two FEEDs (R107, R134) -/

/-- FEED of a valid header block whose payload has bytes leaves that payload awaited (R107). -/
theorem feedRun_validHeader (X : External) {cfg : Profile} {b : Bytes} {h : Header}
    {p : ParserState} (hp : p.Fresh) (hb : b.length = 24) (hv : classifyHeader cfg b = .valid h)
    (hsize : 0 < h.size.toNat) :
    (feedRun X cfg b p).parser.visible = ([], 0, h.size, some h) ∧
    (feedRun X cfg b p).events = [] := by
  obtain ⟨hvis, hev⟩ := drainOnce_of_validHeader X (r := { parser := p.append b, events := [] })
    (rest := []) (hp.append_legal cfg b) hp.noHeader (by simp [hp.append_buf]) hb hv
  have hu : (drainOnce X cfg { parser := p.append b, events := [] }).parser.unitComplete
      = false := by
    simp only [ParserState.visible, Prod.mk.injEq] at hvis
    obtain ⟨-, ht, ha, -⟩ := hvis
    exact (ParserState.unitComplete_eq_false_iff _).mpr (by rw [ht, ha]; exact hsize)
  rw [feedRun_of_fresh X hp hb.ge, drainAll_of_incomplete X cfg hu]
  exact ⟨hvis, hev⟩

/-- A chunk whose only trace on what follows is its events, fed with nothing behind it, gives those
events and leaves the Parser as it was. -/
theorem feedRun_of_prepend_nil {X : External} {cfg : Profile} {chunk : Bytes} {p : ParserState}
    {es : List Event} (hp : p.Resting cfg)
    (h : (feedRun X cfg (chunk ++ []) p).SameButChunks ((feedRun X cfg [] p).prepend es)) :
    (feedRun X cfg chunk p).SameButChunks { parser := p, events := es } := by
  rw [List.append_nil] at h
  simpa [Run.prepend] using h.trans ((feedRun_nil X hp).prepend es)

/-- FEED of a valid header block and its payload in one chunk, with nothing behind them (R107). -/
theorem feedRun_validFrame_alone (X : External) {cfg : Profile} {b payload : Bytes} {h : Header}
    {p : ParserState} (hp : p.Fresh) (hb : b.length = 24) (hv : classifyHeader cfg b = .valid h)
    (hsize : payload.length = h.size.toNat) :
    (feedRun X cfg (b ++ payload) p).SameButChunks
      { parser := p, events := [payloadEvent X h.cmd payload h.checksum] } :=
  feedRun_of_prepend_nil (hp.resting cfg) (feedRun_validFrame X [] hp hb hv hsize)

/-- After FEED of a valid header block, FEED of its payload gives its one event and leaves
AwaitingHeader with an empty FIFO (R107, R134). -/
theorem feedRun_payload_after_validHeader (X : External) {cfg : Profile} {b payload : Bytes}
    {h : Header} {p : ParserState} (hp : p.Fresh) (hb : b.length = 24)
    (hv : classifyHeader cfg b = .valid h) (hsize : payload.length = h.size.toNat)
    (hpos : 0 < h.size.toNat) :
    (feedRun X cfg payload (feedRun X cfg b p).parser).SameButChunks
      { parser := p, events := [payloadEvent X h.cmd payload h.checksum] } := by
  obtain ⟨-, hnone⟩ := feedRun_validHeader X hp hb hv hpos
  obtain ⟨hvis, hev⟩ := feedRun_append X b payload (hp.resting cfg).legal
  obtain ⟨hvis', hev'⟩ := feedRun_validFrame_alone X hp hb hv hsize
  rw [Run.prepend_events, hnone, List.nil_append] at hev
  exact ⟨hvis.symm.trans hvis', hev.symm.trans hev'⟩

/-! ## The event of a payload (R124, R125, R126) -/

/-- The checksum is tested on the first four digest bytes, before the codec (R124, R125). -/
theorem payloadEvent_eq_ite (X : External) (cmd payload : Bytes) (ck : U32) :
    payloadEvent X cmd payload ck =
      if le32 (X.hash256 payload).toList 0 ≠ ck then .error .checksumMismatch none
      else codecEvent X cmd payload := by
  simp only [payloadEvent, checksumDiffers, bne_iff_ne]

theorem codecEvent_of_ok {X : External} {cmd payload : Bytes} {p : Packet}
    (h : X.decode cmd payload = .ok p) : codecEvent X cmd payload = .packet p := by
  simp [codecEvent, h]

theorem codecEvent_of_err {X : External} {cmd payload : Bytes} {c : Cause}
    (h : X.decode cmd payload = .err c) :
    codecEvent X cmd payload = .error .payloadDecodeError (some c) := by
  simp [codecEvent, h]

/-! ## Frames of the Framer, sent as built or altered (R133, R147) -/

/-- FEED of a frame that the Framer builds, with nothing behind it, gives the codec's event (R147). -/
theorem feedRun_buildFrame_alone (X : External) {cfg : Profile} {cmd payload : Bytes}
    {p : ParserState} (hp : p.Fresh) (hc : cmd.length ≤ 11) (h0 : 0#8 ∉ cmd)
    (hmax : payload.length ≤ cfg.maxMessageSize.toNat) :
    (feedRun X cfg (buildFrame cfg cmd payload (payloadChecksum X payload)) p).SameButChunks
      { parser := p, events := [codecEvent X cmd payload] } := by
  rw [← payloadEvent_payloadChecksum]
  exact feedRun_of_prepend_nil (hp.resting cfg) (feedRun_buildFrame X _ [] hp hc h0 hmax)

/-- The header block holds the payload's length and no byte of it, so a frame whose payload is
replaced by one of the same length is the frame built for that one with the same checksum (R142,
R133). -/
theorem buildFrame_take_append {cfg : Profile} {cmd sent altered : Bytes} (ck : U32)
    (hc : cmd.length ≤ 12) (hlen : altered.length = sent.length) :
    (buildFrame cfg cmd sent ck).take 24 ++ altered = buildFrame cfg cmd altered ck := by
  rw [buildFrame_eq_append cfg sent ck hc, buildFrame_eq_append cfg altered ck hc,
    List.take_left' (headerBlock_length hc), hlen]

/-! ## The obligations of 41_parser_process.md -/

/-- Settles O25: a full field with no 0x00 has no terminator, and a 0x00 behind the command is the
first one. -/
theorem commandBoundaries : Obligations.CommandBoundaries := by
  intro cfg cmd size ck h0
  refine ⟨fun hc => ?_, fun padding hc hs => ?_⟩
  · have hclass := classifyHeader_headerBlock_of_full (cfg := cfg) (size := size) (ck := ck) hc h0
    rwa [headerBlock, cmdField_of_full hc] at hclass
  · have hclass := classifyHeader_headerBlock_of_nul (ck := ck) hc.le h0 hs
    rwa [headerBlock, cmdField_of_full (by simp; omega)] at hclass

/-- Settles O26: past the magic and the terminator, the size alone decides the class. -/
theorem sizeBoundIsExact : Obligations.SizeBoundIsExact := by
  intro cfg b hb hmagic hnul
  have hm : blockMagic b = cfg.magic := (le32_eq_iff (by omega) _).mpr hmagic
  obtain ⟨k, hk⟩ := exists_blockTerminator hnul
  refine ⟨⟨fun hover => Nat.lt_of_not_le fun hle => ?_, classifyHeader_of_size_gt hm hk⟩,
    fun hle => ⟨_, classifyHeader_of_size_le hm hk hle⟩⟩
  cases (classifyHeader_of_size_le hm hk hle).symm.trans hover

/-- Settles O29: a refusal, STATUS and the Framer leave the Parser as it is, PROC_HDR does not run
with a Header, and a FEED that does not complete the payload is its append. -/
theorem headerLivesUntilItsPayload : Obligations.HeaderLivesUntilItsPayload := by
  intro i s t h hh hx
  cases exec_eq_next hx with
  | refused => exact .inl hh
  | reset magic max => exact .inr (.inl ⟨magic, max, rfl⟩)
  | feed chunk =>
    obtain hlt | hle := Nat.lt_or_ge (s.parser.total + chunk.length) s.parser.awaiting.toNat
    · rw [feedRun_of_incomplete Config.external _ hlt]
      exact .inl hh
    · exact .inr (.inr (.inr ⟨chunk, rfl, hle⟩))
  | status => exact .inl hh
  | frame => exact .inl hh
  | frameCk => exact .inl hh
  | procHdr _ _ noHeader => cases noHeader.symm.trans hh
  | procPay block _ header length =>
    cases header.symm.trans hh
    exact .inr (.inr (.inl ⟨block, rfl, length⟩))

/-- Settles O37, by the first iteration, on the rejected block. -/
theorem headerErrorResynchronises : Obligations.HeaderErrorResynchronises := by
  intro s cfg b rest k hr hp hb hk
  obtain ⟨hvis, hev⟩ := feedRun_rejectedHeader Config.external rest hp hb hk
  have hfeed := feedWith_of_ready Config.external (b ++ rest) hr
  rw [hev] at hfeed
  exact ⟨_, _, _, feedWith_of_ready Config.external rest hr, hfeed, hvis⟩

/-- Settles O39: the FEED of the header block stops before an empty FIFO, and with the second FEED it
gives what one FEED of the whole frame does. -/
theorem payloadOfTwentyFourBytes : Obligations.PayloadOfTwentyFourBytes := by
  intro s cfg b h hr hp hb hv hsize
  have hpos : 0 < h.size.toNat := by simp [hsize]
  obtain ⟨hvis, hev⟩ := feedRun_validHeader Config.external hp hb hv hpos
  simp only [ParserState.visible, Prod.mk.injEq] at hvis
  obtain ⟨-, ht, ha, hh⟩ := hvis
  refine ⟨_, feedWith_of_ready Config.external b hr, congrArg (some ∘ Result.events) hev,
    ha.trans hsize, hh, ht, fun payload hlen => ?_⟩
  obtain ⟨hvis', hev'⟩ := feedRun_payload_after_validHeader Config.external hp hb hv
    (payload := payload) (by rw [hlen, hsize]; rfl) hpos
  exact ⟨_, feedWith_of_ready Config.external payload ⟨hr.configured, hr.idle⟩,
    congrArg (some ∘ Result.events) hev',
    ParserState.fresh_iff.mpr (hvis'.trans (ParserState.fresh_iff.mp hp))⟩

/-- Settles O41: the altered payload is declared with the checksum of the one sent, and what follows
it is judged by a fresh Parser. -/
theorem alteredPayloadThenRecovery : Obligations.AlteredPayloadThenRecovery := by
  intro X s cfg cmd₁ cmd₂ sent altered payload₂ hr hp hc₁ h0₁ hm₁ hc₂ h0₂ hm₂ hlen hne
  have hfirst := feedRun_buildFrame X (payloadChecksum X sent)
    (buildFrame cfg cmd₂ payload₂ (payloadChecksum X payload₂)) hp hc₁ h0₁ (hlen ▸ hm₁)
  have hck : le32 (X.hash256 altered).toList 0 ≠ payloadChecksum X sent := hne
  rw [payloadEvent_eq_ite, if_pos hck, ← buildFrame_take_append _ (by omega) hlen] at hfirst
  obtain ⟨hvis, hev⟩ := hfirst.trans ((feedRun_buildFrame_alone X hp hc₂ h0₂ hm₂).prepend _)
  exact ⟨_, feedWith_of_ready X _ hr, congrArg (some ∘ Result.events) hev,
    ParserState.fresh_iff.mpr (hvis.trans (ParserState.fresh_iff.mp hp))⟩

/-- Settles O28: PROC_PAY emits the payload's event, which the checksum and then the codec decide. -/
theorem procPayResult : Obligations.ProcPayResult := by
  intro s cfg events h b hf hh hb
  rw [exec_procPay_of_feeding hf hh hb, procPay_eq, payloadEvent_eq_ite]
  cases hd : Config.decode h.cmd b with
  | ok p => rw [codecEvent_of_ok (X := Config.external) hd]; rfl
  | err c => rw [codecEvent_of_err (X := Config.external) hd]; rfl

end Sys2Proof.Machine

/-! ## The result of a Framer operation (R142, R144, R145) -/

namespace Sys2Proof.Machine

/-- A frame that passes both checks is built (R144, R88). -/
theorem frameResult_of_valid {cfg : Profile} {cmd payload : Bytes} (ck : U32)
    (hc : cmd.length ≤ 12) (hmax : payload.length ≤ cfg.maxMessageSize.toNat) :
    frameResult cfg cmd payload ck = .frame (buildFrame cfg cmd payload ck) := by
  rw [frameResult, (frameChecks_eq_none_iff cfg cmd payload).mpr ⟨hc, hmax⟩]

/-- A frame that fails a check is not built (R144, R145). -/
theorem frameResult_of_error {cfg : Profile} {cmd payload : Bytes} (ck : U32)
    (h : 12 < cmd.length ∨ cfg.maxMessageSize.toNat < payload.length) :
    frameResult cfg cmd payload ck =
      .frameError (if 12 < cmd.length then .commandTooLong else .oversizedPayload) := by
  rw [frameResult, frameChecks_of_error h]

/-- A Framer operation that returns a frame has passed both checks (R144, R145). -/
theorem frameResult_eq_frame {cfg : Profile} {cmd payload f : Bytes} {ck : U32}
    (h : frameResult cfg cmd payload ck = .frame f) :
    cmd.length ≤ 12 ∧ payload.length ≤ cfg.maxMessageSize.toNat ∧
      f = buildFrame cfg cmd payload ck := by
  cases hk : frameChecks cfg cmd payload with
  | some kind => simp [frameResult, hk] at h
  | none =>
    obtain ⟨hc, hmax⟩ := (frameChecks_eq_none_iff cfg cmd payload).mp hk
    rw [frameResult_of_valid ck hc hmax] at h
    exact ⟨hc, hmax, (Result.frame.inj h).symm⟩

/-- The two checks in their order, then the fields of the frame one after the other (R142, R144). -/
theorem frameResult_eq_ite (cfg : Profile) (cmd payload : Bytes) (ck : U32) :
    frameResult cfg cmd payload ck =
      if 12 < cmd.length then .frameError .commandTooLong
      else if cfg.maxMessageSize.toNat < payload.length then .frameError .oversizedPayload
      else .frame (wle32 cfg.magic ++ cmd ++ zeros (12 - cmd.length)
        ++ wle32 (BitVec.ofNat 32 payload.length) ++ wle32 ck ++ payload) := by
  by_cases hc : 12 < cmd.length
  · rw [frameResult_of_error ck (.inl hc), if_pos hc, if_pos hc]
  · rw [if_neg hc]
    by_cases hmax : cfg.maxMessageSize.toNat < payload.length
    · rw [frameResult_of_error ck (.inr hmax), if_neg hc, if_pos hmax]
    · rw [if_neg hmax, frameResult_of_valid ck (Nat.not_lt.mp hc) (Nat.not_lt.mp hmax),
        buildFrame_eq_append cfg payload ck (Nat.not_lt.mp hc), headerBlock, cmdField, cmdFieldSize]
      simp only [List.append_assoc]

/-- FRAME_CK runs when there is a configuration (R141). -/
theorem exec_frameCk_of_configured {s : State} {cfg : Profile} (cmd payload : Bytes) (ck : U32)
    (hc : s.cfg = some cfg) :
    exec (.frameCk cmd payload ck) s = .next (s.returns (frameResult cfg cmd payload ck)) :=
  whenConfigured_of_some hc _

/-! ## Fields of a frame (R70, R142) -/

/-- Bytes 20 to 23 of a frame are its checksum (R75, R142). -/
theorem buildFrame_checksum_bytes (cfg : Profile) {cmd : Bytes} (payload : Bytes) (ck : U32)
    (hc : cmd.length ≤ 12) :
    ((buildFrame cfg cmd payload ck).drop 20).take 4 = wle32 ck := by
  rw [buildFrame_eq_append cfg payload ck hc, headerBlock, List.append_assoc,
    List.drop_left' (by simp [cmdField_length cmd hc]), List.take_left' (wle32_length ck)]

/-- Bytes 4 to 15 of a header block are its command field (R70, R142). -/
theorem headerBlock_cmd_bytes {cfg : Profile} {cmd : Bytes} {size ck : U32}
    (hc : cmd.length ≤ 12) :
    ((headerBlock cfg cmd size ck).drop 4).take 12 = cmdField cmd := by
  rw [headerBlock, List.append_assoc, List.append_assoc, List.drop_left' (wle32_length _),
    List.take_left' (cmdField_length cmd hc)]

/-- A command of fewer than 12 bytes is padded with at least one 0x00 (R142). -/
theorem zero_mem_cmdField {cmd : Bytes} (hc : cmd.length ≤ 11) : 0#8 ∈ cmdField cmd :=
  List.mem_append_right _ (List.mem_replicate.mpr ⟨by rw [cmdFieldSize]; omega, rfl⟩)

/-! ## Header blocks that a Parser of another profile reads (R147) -/

section OtherProfile

variable {cfg sender : Profile} {cmd : Bytes} {size ck : U32}

/-- A header block of another magic is rejected whatever its other fields hold (R72, R147). -/
theorem classifyHeader_headerBlock_of_magic_ne (hm : sender.magic ≠ cfg.magic) :
    classifyHeader cfg (headerBlock sender cmd size ck) = .invalidMagic :=
  classifyHeader_of_magic_ne (blockMagic_headerBlock.trans_ne hm)

/-- A header block of the same magic and a padded command is rejected for a size above the
receiver's maximum (R122, R147). -/
theorem classifyHeader_headerBlock_of_size_gt (hm : sender.magic = cfg.magic)
    (hc : cmd.length ≤ 11) (hs : cfg.maxMessageSize.toNat < size.toNat) :
    classifyHeader cfg (headerBlock sender cmd size ck) = .oversizedMessage := by
  have hc12 : cmd.length ≤ 12 := by omega
  obtain ⟨k, hk⟩ := exists_blockTerminator (b := headerBlock sender cmd size ck)
    (by rw [headerBlock_cmd_bytes hc12]; exact zero_mem_cmdField hc)
  exact classifyHeader_of_size_gt (blockMagic_headerBlock.trans hm) hk
    (by rwa [blockSize_headerBlock hc12])

end OtherProfile

/-! ## FEED of a frame, by the class of its header block (R147) -/

/-- The size that BUILD writes is the payload's length when a u32 holds it (R74, R142). -/
theorem toNat_sizeField {payload : Bytes} (hlen : payload.length < 2 ^ 32) :
    (BitVec.ofNat 32 payload.length).toNat = payload.length :=
  Nat.mod_eq_of_lt hlen

/-- FEED of a frame whose header block is rejected gives its error, and the payload is read as header
candidates by a fresh Parser (R131, R147). -/
theorem feedRun_buildFrame_of_rejected (X : External) {cfg sender : Profile} {cmd payload : Bytes}
    {ck : U32} {k : ErrorKind} {p : ParserState} (hp : p.Fresh) (hc : cmd.length ≤ 12)
    (hk : (classifyHeader cfg
      (headerBlock sender cmd (BitVec.ofNat 32 payload.length) ck)).error = some k) :
    (feedRun X cfg (buildFrame sender cmd payload ck) p).SameButChunks
      ((feedRun X cfg payload p).prepend [.error k none]) := by
  rw [buildFrame_eq_append sender payload ck hc]
  exact feedRun_rejectedHeader X payload hp (headerBlock_length hc) hk

/-- FEED of a frame with a full command field that holds no 0x00 reports it malformed (R130, R147). -/
theorem feedRun_buildFrame_of_full (X : External) {cfg : Profile} {cmd : Bytes} (payload : Bytes)
    (ck : U32) {p : ParserState} (hp : p.Fresh) (hc : cmd.length = 12) (h0 : 0#8 ∉ cmd) :
    (feedRun X cfg (buildFrame cfg cmd payload ck) p).SameButChunks
      ((feedRun X cfg payload p).prepend [.error .malformedCommand none]) :=
  feedRun_buildFrame_of_rejected X hp hc.le
    (congrArg HeaderClass.error (classifyHeader_headerBlock_of_full hc h0))

/-- FEED of a frame whose command has a 0x00 gives the event of the command cut there (R83, R147). -/
theorem feedRun_buildFrame_of_nul (X : External) {cfg : Profile} {front back payload : Bytes}
    {p : ParserState} (hp : p.Fresh) (hc : front.length + 1 + back.length ≤ 12)
    (h0 : 0#8 ∉ front) (hmax : payload.length ≤ cfg.maxMessageSize.toNat) :
    (feedRun X cfg (buildFrame cfg (front ++ 0#8 :: back) payload (payloadChecksum X payload))
      p).SameButChunks { parser := p, events := [codecEvent X front payload] } := by
  have hc12 : (front ++ 0#8 :: back).length ≤ 12 := by simp; omega
  have hsize := toNat_sizeField (hmax.trans_lt cfg.maxMessageSize.isLt)
  rw [buildFrame_eq_append cfg payload _ hc12, ← payloadEvent_payloadChecksum]
  exact feedRun_validFrame_alone X hp (headerBlock_length hc12)
    (classifyHeader_headerBlock_of_nul hc h0 (hsize.le.trans hmax)) hsize.symm

/-- FEED of a frame with a checksum that is not the payload's reports it (R124, R148). -/
theorem feedRun_buildFrame_of_checksum_ne (X : External) {cfg : Profile} {cmd payload : Bytes}
    {ck : U32} {p : ParserState} (hp : p.Fresh) (hc : cmd.length ≤ 11) (h0 : 0#8 ∉ cmd)
    (hmax : payload.length ≤ cfg.maxMessageSize.toNat)
    (hne : le32 (X.hash256 payload).toList 0 ≠ ck) :
    (feedRun X cfg (buildFrame cfg cmd payload ck) p).SameButChunks
      { parser := p, events := [.error .checksumMismatch none] } := by
  have hfeed := feedRun_buildFrame X ck [] hp hc h0 hmax
  rw [payloadEvent_eq_ite, if_pos hne] at hfeed
  exact feedRun_of_prepend_nil (hp.resting cfg) hfeed

/-- A FEED that leaves the visible Parser state as it found it leaves it fresh if it was (R35). -/
theorem Run.SameButChunks.fresh {r : Run} {p : ParserState} {es : List Event} (hp : p.Fresh)
    (h : r.SameButChunks { parser := p, events := es }) : r.parser.Fresh :=
  ParserState.fresh_iff.mpr (h.parser.trans (ParserState.fresh_iff.mp hp))

/-- LOOPBACK of a frame that passes the checks is the FEED of it (R90). -/
theorem loopback_of_valid {s : State} {cfg : Profile} {cmd payload : Bytes} (hr : s.Ready cfg)
    (hc : cmd.length ≤ 12) (hmax : payload.length ≤ cfg.maxMessageSize.toNat) :
    loopback cmd payload s = .next (s.returnsRun (feedRun Config.external cfg
      (buildFrame cfg cmd payload (payloadChecksum Config.external payload)) s.parser)) := by
  rw [loopback, exec_frame_of_configured cmd payload hr.configured, frameResult_of_valid _ hc hmax]
  exact feedWith_eq Config.external _ ⟨hr.configured, hr.idle⟩

/-! ## The obligations of 42_framer.md -/

/-- Settles O42, by the Framer's result at the computed checksum. The namespace keeps its name apart
from the model's `frameResult`. -/
theorem Framer.frameResult : Obligations.FrameResult := by
  intro s cfg cmd payload hc
  rw [exec_frame_of_configured cmd payload hc, frameResult_eq_ite]
  rfl

/-- Settles O43, by the Framer's result at the supplied checksum. -/
theorem frameCkResult : Obligations.FrameCkResult := by
  intro s cfg cmd payload ck hc
  rw [exec_frameCk_of_configured cmd payload ck hc, frameResult_eq_ite]
  rfl

/-- Settles O44: both operations run on the same guard and return the same frame, whose checksum
field is the first four digest bytes written back. -/
theorem checksumBytesAreDigestBytes : Obligations.ChecksumBytesAreDigestBytes := by
  refine fun s cmd payload => ⟨rfl, fun t f hx hf => ?_⟩
  cases exec_eq_next hx with
  | refused => cases hf
  | frame _ _ hcfg =>
    obtain ⟨hc, -, rfl⟩ := frameResult_eq_frame (Option.some.inj hf)
    rw [buildFrame_checksum_bytes _ payload _ hc]
    exact wle32_le32 (by simp)

/-- Settles O45: the frame's one event is the codec's, and the Parser is as it was. -/
theorem loopbackRoundTrip : Obligations.LoopbackRoundTrip := by
  intro s cfg cmd payload hr hp hc h0 hmax
  have hfeed := feedRun_buildFrame_alone Config.external hp hc h0 hmax
  exact ⟨_, loopback_of_valid hr (by omega) hmax, congrArg (some ∘ Result.events) hfeed.events,
    hfeed.fresh hp, hr.configured, rfl⟩

/-- Settles O46: a full command field has no terminator, so the header block is rejected. -/
theorem twelveByteCommandDoesNotParse : Obligations.TwelveByteCommandDoesNotParse := by
  intro s cfg cmd payload hr hp hc h0 hmax
  have hfeed := feedRun_buildFrame_of_full (cfg := cfg) Config.external payload
    (payloadChecksum Config.external payload) hp hc h0
  exact ⟨_, _, _, loopback_of_valid hr hc.le hmax, feedWith_eq Config.external payload hr, rfl,
    congrArg (some ∘ Result.events) hfeed.events, hfeed.parser⟩

/-- Settles O47: the first 0x00 of the command is the terminator the Parser finds. -/
theorem commandCutAtFirstNul : Obligations.CommandCutAtFirstNul := by
  intro s cfg front back payload hr hp h0 hc hmax
  have hfeed := feedRun_buildFrame_of_nul Config.external hp hc h0 hmax
  exact ⟨_, loopback_of_valid hr (by simp; omega) hmax,
    congrArg (some ∘ Result.events) hfeed.events, hfeed.fresh hp⟩

/-- Settles O48: the magic is checked first, and with the same magic the size is above the
receiver's maximum. -/
theorem frameOfAnotherProfile : Obligations.FrameOfAnotherProfile := by
  intro s cfg sender cmd payload ck hr hp hc hlen hother
  have hclass : (classifyHeader cfg
      (headerBlock sender cmd (BitVec.ofNat 32 payload.length) ck)).error = some
        (if sender.magic ≠ cfg.magic then .invalidMagic else .oversizedMessage) := by
    by_cases hm : sender.magic = cfg.magic
    · have hover := hother.resolve_left (not_not.mpr hm)
      rw [if_neg (not_not.mpr hm), classifyHeader_headerBlock_of_size_gt hm hc
        (hover.trans_eq (toNat_sizeField hlen).symm)]
      rfl
    · rw [if_pos hm, classifyHeader_headerBlock_of_magic_ne hm]
      rfl
  have hfeed := feedRun_buildFrame_of_rejected Config.external hp (by omega) hclass
  exact ⟨_, _, _, feedWith_eq Config.external _ hr, feedWith_eq Config.external payload hr, rfl,
    congrArg (some ∘ Result.events) hfeed.events, hfeed.parser⟩

/-- Settles O49: FRAME_CK writes the checksum as given, and the Parser compares it with the digest. -/
theorem wrongSuppliedChecksum : Obligations.WrongSuppliedChecksum := by
  intro s cfg cmd payload ck hr hp hc h0 hmax hne
  have hframe := exec_frameCk_of_configured cmd payload ck hr.configured
  rw [frameResult_of_valid ck (by omega) hmax] at hframe
  have hfeed := feedRun_buildFrame_of_checksum_ne Config.external hp hc h0 hmax hne.symm
  exact ⟨_, _, _, hframe, rfl, feedWith_eq Config.external _ ⟨hr.configured, hr.idle⟩,
    congrArg (some ∘ Result.events) hfeed.events, hfeed.fresh hp⟩

end Sys2Proof.Machine

/-! ## Between operations the last result is not read (R85, R153) -/

namespace Sys2Proof.Machine

/-- A refusal clears the result, whatever it was (R166). -/
@[simp] theorem State.returns_refuse (s : State) (v : Result) : (s.returns v).refuse = s.refuse := rfl

/-- The guard of R166 item 3 does not read the last result, and its refusal clears it. -/
theorem whenIdle_returns (s : State) (v : Result) (run : Host.Outcome State Fault Refusal) :
    whenIdle (s.returns v) run = whenIdle s run := by
  cases hf : s.inFeed with
  | none => rw [whenIdle_of_none hf, whenIdle_of_none (by simpa using hf)]
  | some events =>
    rw [whenIdle_of_some hf, whenIdle_of_some (by simpa using hf), State.returns_refuse]

/-- The guard of R166 item 1 does not read the last result, and its refusal clears it. -/
theorem whenConfigured_returns (s : State) (v : Result)
    (run : Profile → Host.Outcome State Fault Refusal) :
    whenConfigured (s.returns v) run = whenConfigured s run := by
  cases hc : s.cfg with
  | some cfg => rw [whenConfigured_of_some hc, whenConfigured_of_some (by simpa using hc)]
  | none =>
    rw [whenConfigured_of_none hc, whenConfigured_of_none (by simpa using hc), State.returns_refuse]

/-- With no FEED running, no operation tells which result the last one returned: each overwrites or
clears it (R85, R166). Inside a FEED a micro-step would keep it. -/
theorem exec_returns_of_idle {s : State} (v : Result) (hf : s.inFeed = none) (i : Instr) :
    exec i (s.returns v) = exec i s := by
  cases i with
  | reset magic max => exact whenIdle_returns s v _
  | feed chunk =>
    exact (whenIdle_returns s v _).trans (congrArg (whenIdle s) (whenConfigured_returns s v _))
  | status =>
    exact (whenIdle_returns s v _).trans (congrArg (whenIdle s) (whenConfigured_returns s v _))
  | frame cmd payload => exact whenConfigured_returns s v _
  | frameCk cmd payload ck => exact whenConfigured_returns s v _
  | procHdr block =>
    rw [exec_procHdr_of_unselected (.inl hf), exec_procHdr_of_unselected (.inl (by simpa using hf)),
      State.returns_refuse]
  | procPay block =>
    rw [exec_procPay_of_unselected (.inl hf), exec_procPay_of_unselected (.inl (by simpa using hf)),
      State.returns_refuse]

/-- Between operations and with a configuration, STATUS returns its record (R152). -/
theorem exec_status_of_ready {s : State} {cfg : Profile} (hr : s.Ready cfg) :
    exec .status s = .next (s.returns (.status (statusRecord cfg s.parser))) :=
  (whenIdle_of_none hr.idle _).trans (whenConfigured_of_some hr.configured _)

/-! ## The obligations of 43_control.md -/

/-- Settles O4: STATUS writes the result port only, and between operations no next state depends on
that port. -/
theorem statusHasNoSideEffect : Obligations.StatusHasNoSideEffect := by
  intro s cfg hr
  have hstatus := exec_status_of_ready hr
  have hsame := exec_returns_of_idle (.status (statusRecord cfg s.parser)) hr.idle
  exact ⟨_, hstatus, (hsame .status).trans hstatus, hsame⟩

/-- Settles O3: the record's phase is the case of the Header, and STATUS writes the result only. -/
theorem statusReturnsTheRecord : Obligations.StatusReturnsTheRecord :=
  fun _ _ => exec_status_of_ready

end Sys2Proof.Machine

/-! ## When an operation is refused and when it runs (R166, R174) -/

namespace Sys2Proof.Machine

/-- The two ways of issuing a call that refuse it (R166 items 3 and 4). -/
theorem issueRefused_iff {issue : Issue} {i : Instr} : issueRefused issue i = true ↔
    (issue = .overlapping ∧ i.isFramerOp = false) ∨ issue = .reentrant := by
  cases issue <;> simp [issueRefused]

/-- A call that may not be issued so is refused (R166 items 3 and 4). -/
theorem step_of_refused_call {s : State} {call : HostCall} {calls : List HostCall} {i : Instr}
    (hf : s.inFeed = none) (hp : s.pending = call :: calls)
    (hd : decodeDescriptor call.descriptor = some i) (hi : issueRefused call.issue i = true) :
    step s = .next (s.setPending calls).refuse := by
  simp [step, fetch, fetchCall, hf, hp, hd, hi]

/-- While a FEED runs, a FEED, a RESET and a STATUS are refused (R166 item 3). -/
theorem exec_of_running {i : Instr} {s : State} {events : List Event}
    (hf : s.inFeed = some events) (hh : i.isHostOp = true) (hi : i.isFramerOp = false) :
    exec i s = .next s.refuse := by
  cases i with
  | reset magic max => exact exec_reset_of_running magic max hf
  | feed chunk => exact whenIdle_of_some hf _
  | status => exact whenIdle_of_some hf _
  | frame | frameCk => cases hi
  | procHdr | procPay => cases hh

/-- A framer operation reads nothing of the state but the configuration, and writes nothing of it but
the result (R37, R146). -/
theorem exists_framerResult {f : Instr} (hf : f.isFramerOp = true) (cfg : Profile) :
    ∃ r, ∀ s : State, s.cfg = some cfg → exec f s = .next (s.returns r) := by
  cases f with
  | frame cmd payload => exact ⟨_, fun _ => exec_frame_of_configured cmd payload⟩
  | frameCk cmd payload ck => exact ⟨_, fun _ => exec_frameCk_of_configured cmd payload ck⟩
  | reset | feed | status | procHdr | procPay => cases hf

/-- Between operations and with a configuration, a host operation runs and leaves the machine so,
with the mark and the queue as they were (R166). -/
theorem exec_of_ready {i : Instr} {s : State} {cfg : Profile} (hr : s.Ready cfg)
    (hh : i.isHostOp = true) :
    ∃ t cfg', exec i s = .next t ∧ t.Ready cfg' ∧ t.refusedMark = s.refusedMark ∧
      t.pending = s.pending := by
  cases i with
  | reset magic max => exact ⟨_, _, exec_reset_of_idle magic max hr.idle, ⟨rfl, hr.idle⟩, rfl, rfl⟩
  | feed chunk => exact ⟨_, cfg, feedWith_eq _ chunk hr, ⟨hr.configured, rfl⟩, rfl, rfl⟩
  | status => exact ⟨_, cfg, exec_status_of_ready hr, ⟨hr.configured, hr.idle⟩, rfl, rfl⟩
  | frame cmd payload =>
    exact ⟨_, cfg, exec_frame_of_configured cmd payload hr.configured,
      ⟨hr.configured, hr.idle⟩, rfl, rfl⟩
  | frameCk cmd payload ck =>
    exact ⟨_, cfg, exec_frameCk_of_configured cmd payload ck hr.configured,
      ⟨hr.configured, hr.idle⟩, rfl, rfl⟩
  | procHdr | procPay => cases hh

/-- With a configuration, a micro-step is refused or goes on with the FEED, whatever the last
result was, which it does not read (R33, R84). -/
theorem exec_micro_of_configured {i : Instr} {s : State} {cfg : Profile} (hc : s.cfg = some cfg)
    (hi : i.isHostOp = false) :
    (∀ port, exec i { s with result := port } = .next s.refuse) ∨
    ∃ r, ∀ port, exec i { s with result := port } = .next { s.setRun r with result := port } := by
  cases i with
  | procHdr block =>
    by_cases hsel : s.inFeed = none ∨ s.parser.hdr ≠ none ∨ block.length ≠ 24
    · exact .inl fun port => exec_procHdr_of_unselected (s := { s with result := port }) hsel
    · simp only [ne_eq, not_or, not_not] at hsel
      obtain ⟨hf, hh, hb⟩ := hsel
      obtain ⟨events, hf⟩ := Option.ne_none_iff_exists'.mp hf
      exact .inr ⟨procHdr cfg block { parser := s.parser, events }, fun port =>
        exec_procHdr_of_feeding (s := { s with result := port }) ⟨hc, hf⟩ hh hb⟩
  | procPay block =>
    by_cases hsel : s.inFeed = none ∨ ∀ h, s.parser.hdr = some h → block.length ≠ h.size.toNat
    · exact .inl fun port => exec_procPay_of_unselected (s := { s with result := port }) hsel
    · simp only [ne_eq, not_or, not_forall, not_not, exists_prop] at hsel
      obtain ⟨hf, h, hh, hb⟩ := hsel
      obtain ⟨events, hf⟩ := Option.ne_none_iff_exists'.mp hf
      exact .inr ⟨procPay Config.external h block { parser := s.parser, events }, fun port =>
        exec_procPay_of_feeding (s := { s with result := port }) ⟨hc, hf⟩ hh hb⟩
  | reset | feed | status | frame | frameCk => cases hi

/-- Every operation has a next state (R160). -/
theorem exec_total (i : Instr) (s : State) : ∃ t, exec i s = .next t := by
  cases hc : s.cfg with
  | none =>
    by_cases hreset : ∃ magic max, i = .reset magic max
    · obtain ⟨magic, max, rfl⟩ := hreset
      cases hf : s.inFeed with
      | none => exact ⟨_, exec_reset_of_idle magic max hf⟩
      | some events => exact ⟨_, exec_reset_of_running magic max hf⟩
    · exact ⟨_, exec_of_unconfigured hc fun magic max h => hreset ⟨magic, max, h⟩⟩
  | some cfg =>
    cases hh : i.isHostOp with
    | false =>
      obtain h | ⟨_, h⟩ := exec_micro_of_configured hc hh
      · exact ⟨_, h s.result⟩
      · exact ⟨_, h s.result⟩
    | true =>
      cases hf : s.inFeed with
      | none =>
        obtain ⟨t, -, h, -⟩ := exec_of_ready ⟨hc, hf⟩ hh
        exact ⟨t, h⟩
      | some events =>
        cases hi : i.isFramerOp with
        | false => exact ⟨_, exec_of_running hf hh hi⟩
        | true =>
          obtain ⟨_, h⟩ := exists_framerResult hi cfg
          exact ⟨_, h s hc⟩

/-! ## What an operation does to the mark and the configuration, and how it reads the result -/

/-- An operation keeps the mark or is refused (R166). -/
theorem exec_refusedMark {i : Instr} {s t : State} (h : exec i s = .next t) :
    t.refusedMark = s.refusedMark ∨ t = s.refuse := by
  cases exec_eq_next h with
  | refused => exact .inr rfl
  | reset | feed | status | frame | frameCk | procHdr | procPay => exact .inl rfl

/-- A set mark stays set, RESET included (R166). -/
theorem exec_refusedMark_of_set {i : Instr} {s t : State} (hm : s.refusedMark = true)
    (h : exec i s = .next t) : t.refusedMark = true := by
  obtain hk | rfl := exec_refusedMark h
  · exact hk.trans hm
  · rfl

/-- Nothing but a RESET changes the configuration (R183). -/
theorem exec_cfg {i : Instr} {s t : State} (h : exec i s = .next t) :
    t.cfg = s.cfg ∨ ∃ magic max, i = .reset magic max := by
  cases exec_eq_next h with
  | reset magic max => exact .inr ⟨magic, max, rfl⟩
  | refused | feed | status | frame | frameCk | procHdr | procPay => exact .inl rfl

/-- With a configuration, no host operation reads the last result, inside a FEED too (R85). -/
theorem exec_returns_of_isHostOp {i : Instr} {s : State} {cfg : Profile} (v : Result)
    (hc : s.cfg = some cfg) (hh : i.isHostOp = true) : exec i (s.returns v) = exec i s := by
  cases hf : s.inFeed with
  | none => exact exec_returns_of_idle v hf i
  | some events =>
    cases hi : i.isFramerOp with
    | false => rw [exec_of_running hf hh hi, exec_of_running (s := s.returns v) hf hh hi,
        State.returns_refuse]
    | true =>
      obtain ⟨r, hr⟩ := exists_framerResult hi cfg
      rw [hr s hc, hr (s.returns v) hc]
      rfl

/-! ## The obligations of 60_exceptions.md -/

/-- Settles O11: a refusal is one of the cases of R166, a call that runs sets the mark only without a
configuration, and by the invariant the micro-step that a FEED selects is not refused. -/
theorem onlyRefusalsSetTheMark : Obligations.OnlyRefusalsSetTheMark := by
  intro s t hinv hstep hclear hset
  have hne : t.refusedMark ≠ s.refusedMark := by simp [hclear, hset]
  obtain ⟨-, -, hs⟩ | ⟨call, calls, hf, hp, hd, -⟩ | ⟨call, calls, i, hf, hp, hd, hi, -⟩ |
    ⟨call, calls, i, hf, hp, hd, -, hs⟩ | ⟨events, -, -, hs⟩ | ⟨events, hf, hu, hs⟩ := step_cases s
  · cases hs.symm.trans hstep
    exact absurd rfl hne
  · exact ⟨call, calls, hf, hp, .inl hd⟩
  · exact ⟨call, calls, hf, hp, .inr ⟨i, hd, .inr (issueRefused_iff.mp hi)⟩⟩
  · refine ⟨call, calls, hf, hp, .inr ⟨i, hd, .inl ?_⟩⟩
    have hexec := hs.symm.trans hstep
    cases hc : s.cfg with
    | none =>
      refine ⟨rfl, ?_⟩
      rintro magic max rfl
      cases (exec_reset_of_idle (s := s.setPending calls) magic max hf).symm.trans hexec
      exact absurd rfl hne
    | some cfg =>
      obtain ⟨-, hh, -⟩ := decodeDescriptor_eq_some_iff.mp hd
      obtain ⟨u, -, hu, -, hm, -⟩ := exec_of_ready (s := s.setPending calls) ⟨hc, hf⟩ hh
      cases hu.symm.trans hexec
      exact absurd hm hne
  · cases hs.symm.trans hstep
    exact absurd rfl hne
  · obtain ⟨cfg, hfeed⟩ := hinv.feeding hf
    have hlegal := hfeed.configured ▸ hinv.parser
    have hmicro := exec_decodeMicro (s := s.setParser (s.parser.extract s.parser.awaiting.toNat).2)
      ⟨hfeed.configured, hf⟩ (ParserState.extract_legal _ hlegal)
      (ParserState.extract_block_length (p := s.parser) hlegal hu)
    cases (hs.trans hmicro).symm.trans hstep
    exact absurd rfl hne

/-- Settles O57, by induction on the number of steps: each takes the first call, whose operation runs
and leaves the machine ready for the others. -/
theorem sequentialProgramsAreSafe : Obligations.SequentialProgramsAreSafe := by
  intro s cfg is hr hclear hp his n
  induction n generalizing s cfg is with
  | zero => exact ⟨s, rfl, hclear⟩
  | succ n ih =>
    cases is with
    | nil =>
      rw [SafeRun, run_succ_of_next core (step_of_no_call hr.idle hp)]
      exact ih s cfg [] hr hclear hp his
    | cons i is =>
      obtain ⟨⟨hw, hh⟩, his⟩ := List.forall_mem_cons.mp his
      obtain ⟨t, cfg', hexec, hrt, hmt, hpt⟩ :=
        exec_of_ready (s := s.setPending (programCalls is)) ⟨hr.configured, hr.idle⟩ hh
      have hstep := (step_of_call hr.idle hp (decodeDescriptor_eq_some_iff.mpr ⟨hw, hh, rfl⟩)
        rfl).trans hexec
      rw [SafeRun, run_succ_of_next core hstep]
      exact ih t cfg' is hrt (hmt.trans hclear) hpt his

/-- Settles O6: the guard of R166 item 3 refuses, and a framer operation does not read `inFeed`. -/
theorem overlapWithRunningFeed : Obligations.OverlapWithRunningFeed := by
  intro s cfg events hf
  refine ⟨fun i => exec_of_running hf.running, fun i hi => ?_⟩
  obtain ⟨v, hv⟩ := exists_framerResult hi cfg
  exact ⟨v, hv s hf.configured, hv { s with inFeed := none } hf.configured⟩

/-- Settles O10: a step holds the mark, sets it, or runs an operation, which does not clear it. -/
theorem refusedMarkIsSticky : Obligations.RefusedMarkIsSticky := by
  intro s t hstep hm
  obtain ⟨-, -, hs⟩ | ⟨_, calls, -, -, -, hs⟩ | ⟨_, calls, _, -, -, -, -, hs⟩ |
    ⟨_, calls, _, -, -, -, -, hs⟩ | ⟨events, -, -, hs⟩ | ⟨events, -, -, hs⟩ := step_cases s <;>
    rw [hs] at hstep
  · cases hstep; exact hm
  · cases hstep; rfl
  · cases hstep; rfl
  · exact exec_refusedMark_of_set (s := s.setPending calls) hm hstep
  · cases hstep; exact hm
  · exact exec_refusedMark_of_set
      (s := s.setParser (s.parser.extract s.parser.awaiting.toNat).2) hm hstep

/-- Settles O14: a step goes to a state or runs an operation, and every operation has a next state. -/
theorem everyStepReturns : Obligations.EveryStepReturns := by
  refine ⟨exec_total, fun s => ?_⟩
  unfold step
  cases fetch s with
  | run i t => exact exec_total i t
  | goTo t => exact ⟨t, rfl⟩

/-- Settles O58: the framer operation writes the result only, which no other operation reads, and
reads the configuration only, which no operation but RESET writes. -/
theorem framerOperationsInterleave : Obligations.FramerOperationsInterleave := by
  intro f i s t cfg hf hc h
  obtain ⟨r, hr⟩ := exists_framerResult hf cfg
  refine ⟨r, hr s hc, fun hh => (exec_returns_of_isHostOp r hc hh).trans h, fun hh => ?_,
    fun hreset => hr t ?_⟩
  · obtain hi | ⟨run, hi⟩ := exec_micro_of_configured hc hh
    · cases (hi s.result).symm.trans h
      exact ⟨none, hi (some r)⟩
    · cases (hi s.result).symm.trans h
      exact ⟨some r, hi (some r)⟩
  · obtain hcfg | ⟨magic, max, rfl⟩ := exec_cfg h
    · exact hcfg.trans hc
    · exact (hreset magic max rfl).trans hc

/-- Settles O8: the issue tag and the operation's group decide whether the call is refused. -/
theorem issuedCallsRefusedOrRun : Obligations.IssuedCallsRefusedOrRun := by
  intro s call calls i hf hp hd
  have hrefused := step_of_refused_call hf hp hd
  refine ⟨fun hissue => hrefused (issueRefused_iff.mpr (.inr hissue)), fun hissue hi =>
    hrefused (issueRefused_iff.mpr (.inl ⟨hissue, hi⟩)), fun hissue hi => ?_⟩
  exact step_of_call hf hp hd (by rw [hissue, issueRefused, hi, Bool.not_true])

end Sys2Proof.Machine

/-! ## Where the configuration changes (R150, R183) -/

namespace Sys2Proof.Machine

/-- No phase of a running FEED selects RESET (R84). -/
theorem decodeMicro_ne_reset (p : Bool) (block : Bytes) (magic max : U32) :
    decodeMicro p block ≠ .reset magic max := by
  cases p <;> exact Instr.noConfusion

/-- An operation that changes the configuration is a RESET that ran: it latched its operands and
emptied the Parser (R150, R183). -/
theorem exec_of_cfg_ne {i : Instr} {s t : State} (h : exec i s = .next t) (hne : t.cfg ≠ s.cfg) :
    ∃ magic max, i = .reset magic max ∧
      t.cfg = some { magic := magic, maxMessageSize := max } ∧ t.parser = ParserState.initial := by
  obtain ⟨magic, max, rfl⟩ := (exec_cfg h).resolve_left hne
  cases exec_eq_next h with
  | refused => exact absurd rfl hne
  | reset => exact ⟨magic, max, rfl, rfl, rfl⟩

/-! ## The obligations of 70_reset_and_hazards.md -/

/-- Settles O55: of the six things a step can be, only one that runs an operation can change the
configuration, and the operation that a running FEED selects is not a RESET. -/
theorem onlyResetChangesTheProfile : Obligations.OnlyResetChangesTheProfile := by
  intro s t hstep hne
  obtain ⟨-, -, hs⟩ | ⟨_, calls, -, -, -, hs⟩ | ⟨_, calls, _, -, -, -, -, hs⟩ |
    ⟨call, calls, i, hf, hp, hd, -, hs⟩ | ⟨events, -, -, hs⟩ | ⟨events, -, -, hs⟩ := step_cases s <;>
    rw [hs] at hstep
  · cases hstep; exact absurd rfl hne
  · cases hstep; exact absurd rfl hne
  · cases hstep; exact absurd rfl hne
  · obtain ⟨magic, max, rfl, hcfg, hparser⟩ := exec_of_cfg_ne (s := s.setPending calls) hstep hne
    exact ⟨call, calls, magic, max, hf, hp, hd, hcfg, hparser⟩
  · cases hstep; exact absurd rfl hne
  · obtain ⟨magic, max, hreset, -⟩ := exec_of_cfg_ne
      (s := s.setParser (s.parser.extract s.parser.awaiting.toNat).2) hstep hne
    exact absurd hreset (decodeMicro_ne_reset _ _ magic max)

end Sys2Proof.Machine
